-- ==== Sys2Proof/Word.lean ====
section
/-! DEFINITION. The bit-vector types of PTE's operands. All quantities are unsigned (R13). -/

namespace Sys2Proof

/-- One character code of a command, the SYM format (R53, R58). -/
abbrev Byte := BitVec 8

/-- The command bus `cmd_data` and the register `cmd_q`: 25 bytes, byte `i` in bits `8*i+7 : 8*i` (R13, R42). -/
abbrev CmdData := BitVec 200

/-- The register position of a natural number `v` as `k` bytes, the least significant byte first (R42). -/
def leBytes : Nat → Nat → List Byte
  | 0, _ => []
  | k + 1, v => BitVec.ofNat 8 v :: leBytes k (v / 256)

/-- The number whose bytes are listed, the least significant byte first (R42). -/
def leNat : List Byte → Nat
  | [] => 0
  | b :: bs => b.toNat + 256 * leNat bs

end Sys2Proof
end

