-- ==== Sys2Proof/Config.lean ====
section
/-! DEFINITION. The constants of the protocol (R7, R8), the build parameters (R9 to R12), and the values the
spec leaves free, each an opaque constant with no body. -/

namespace Sys2Proof

/-- `TICKS_PER_US`, a positive integer (R9). -/
abbrev Ticks := { n : Nat // 0 < n }

/-- `LEN_W`, at least 8 (R11). -/
abbrev LenWidth := { n : Nat // 8 ≤ n }

/-- A value of `LEN_W` bits: `cmd_len`, `pinfo`, `err_info` (R11, R20, R36). -/
abbrev LenWord (W : LenWidth) := BitVec W.val

/-- The parameters a PTE is built with (R9, R11). -/
structure Build where
  ticksPerUs : Ticks
  lenW : LenWidth
deriving DecidableEq, Repr

namespace Config

/-- `N_SYM`: symbols per command (R7). -/
def nSym : Nat := 25
/-- `N_REP`: repetitions of the frame (R7). -/
def nRep : Nat := 6
/-- `D_AGCH` in microseconds (R7). -/
def dAgcHigh : Nat := 400
/-- `D_AGCL` in microseconds (R7). -/
def dAgcLow : Nat := 2210
/-- `D_SHORT` in microseconds (R7). -/
def dShort : Nat := 335
/-- `D_LONG` in microseconds (R7). -/
def dLong : Nat := 1190

/-- `PIN_ID`, a build-time constant on six bits (R8, R35, R119). -/
def pinId : BitVec 6 := 23#6

/-- The spec's defaults of the parameters: `TICKS_PER_US` 1 (R9, D2) and `LEN_W` 16 (R11), at which `State.reset`
stands. DESIGN CHOICE, log entries 1 and 2: every statement is made for every value of the parameters; unsafe only for a
claim about `State.reset` itself. -/
abbrev defaultBuild : Build := ⟨⟨1, by decide⟩, ⟨16, by decide⟩⟩

/-- The ceiling of the base-2 logarithm (R12). -/
def clog2 (n : Nat) : Nat := if n ≤ 1 then 0 else Nat.log2 (n - 1) + 1

/-- `N_AGCH`, in cycles (R10). -/
def nAgcHigh (T : Ticks) : Nat := dAgcHigh * T.val
/-- `N_AGCL`, in cycles (R10). -/
def nAgcLow (T : Ticks) : Nat := dAgcLow * T.val
/-- `N_SHORT`, in cycles (R10). -/
def nShort (T : Ticks) : Nat := dShort * T.val
/-- `N_LONG`, in cycles (R10). -/
def nLong (T : Ticks) : Nat := dLong * T.val

/-- `CNT_W`: the width of the hold counter (R12). -/
def cntW (T : Ticks) : Nat := clog2 (nAgcLow T)

/-! Free values. The argument is `Pte.cycle`, so that each clock cycle has values of its own. -/

/-- The level on `rst` in a cycle no entry of `Pte.driven` drives (R81). Log entry 3, safe. -/
opaque freeRst : Nat → Bool
/-- The level on `start` in a cycle no entry of `Pte.driven` drives (R81). Log entry 3, safe. -/
opaque freeStart : Nat → Bool
/-- The value on `cmd_len` in a cycle no entry of `Pte.driven` drives (R81). Log entry 3, safe. -/
opaque freeCmdLen (W : LenWidth) : Nat → LenWord W
/-- The value on `cmd_data` in a cycle no entry of `Pte.driven` drives (R81). Log entry 3, safe. -/
opaque freeCmdData : Nat → CmdData
/-- The answer on `pin_avail` in a cycle no entry of `Pte.driven` drives (R82, U5). Log entry 3, safe. -/
opaque freePinAvail : Nat → Bool

/-- `cmd_q[i]` for an index above 24, which names no byte (R13); only unreachable states read it.
Log entry 7, safe. -/
opaque unstatedByte : Nat → Nat → Byte
/-- The value of `cnt` that SYM_HIGH loads for a byte that is no symbol (R91, R97); only unreachable states load it.
Log entry 6, safe. -/
opaque unstatedHold (T : Ticks) : Nat → Byte → BitVec (cntW T)
/-- `idx + 1` when `idx` is 31, which five bits cannot hold (R109). Log entry 8, safe. -/
opaque unstatedIdx : Nat → BitVec 5
/-- `rep + 1` when `rep` is 7, which three bits cannot hold (R109). Log entry 8, safe. -/
opaque unstatedRep : Nat → BitVec 3

end Config
end Sys2Proof
end

