-- ==== Sys2Proof/Syntax.lean ====
section
/-! DEFINITION. PTE's operations as syntax: one constructor of `Instr` per row of the opcode table (R69, R72),
the words they are encoded in (R53), and the names the formats give to codes. -/

namespace Sys2Proof

/-- The three groups of rows of the opcode table (R69). -/
inductive Format where
  | ctrl
  | sym
  | state
deriving DecidableEq, Repr

/-- A word PTE decodes: the CTRL word `rst, start` with the CMD operand beside it (R55, R56), a command byte
(R58), or the code in `st` (R60); `W` is `LEN_W`. -/
inductive Code (W : LenWidth) where
  | ctrl (word : BitVec 2) (cmdLen : LenWord W) (cmdData : CmdData)
  | sym (c : Byte)
  | state (code : BitVec 4)
deriving DecidableEq, Repr

/-- One constructor per row of the opcode table, in the table's order (R69, R72). -/
inductive Instr where
  /-- CTRL `0b00` (R75). -/
  | nop
  /-- CTRL `0b01` with the CMD operand (R55, R73, R74); the length is the count that `cmd_len` holds (R63), a number,
  so that one syntax serves every `LEN_W`. Log entry 17. -/
  | transmit (cmdLen : Nat) (cmdData : CmdData)
  /-- CTRL `0b1x`; the ignored `start` bit is kept so that encoding loses nothing (R56, R142). -/
  | reset (start : Bool)
  /-- SYM `0x30` (R95). -/
  | sym0
  /-- SYM `0x31` (R96). -/
  | sym1
  /-- SYM, any other byte (R97). -/
  | symInvalid (c : Byte)
  /-- STATE 0 (R84). -/
  | idle
  /-- STATE 1 (R87). -/
  | claim
  /-- STATE 2 (R88). -/
  | validate
  /-- STATE 3 (R89). -/
  | agcHigh
  /-- STATE 4 (R90). -/
  | agcLow
  /-- STATE 5 (R91). -/
  | symHigh
  /-- STATE 6 (R92). -/
  | symLow
  /-- STATE 7 (R93). -/
  | release
  /-- STATE 8 (R85). -/
  | done
  /-- STATE 9 (R86). -/
  | rejected
  /-- STATE `0b101x` (R94); `low` is the bit the mask leaves open. -/
  | illegalState1011 (low : BitVec 1)
  /-- STATE `0b11xx` (R94); `low` is the two bits the mask leaves open. -/
  | illegalState1215 (low : BitVec 2)
deriving DecidableEq, Repr

/-- The two values of a valid symbol (R58). -/
inductive Symbol where
  | zero
  | one
deriving DecidableEq, Repr

/-- What the four bits of `st` name (R60): ten states and the six illegal codes 10 to 15. Log entry 15. -/
inductive FsmState where
  | idle
  | claim
  | validate
  | agcHigh
  | agcLow
  | symHigh
  | symLow
  | release
  | done
  | rejected
  /-- Code `10 + k` (R94). -/
  | illegal (k : Fin 6)
deriving DecidableEq, Repr

/-- What the two bits of `perr` name (R122); all four codes have a name. Log entry 15. -/
inductive ErrorCode where
  | none
  | invalidCommandLength
  | invalidSymbol
  | pinUnavailable
deriving DecidableEq, Repr

/-- The CMD operand of a TRANSMIT (R55). -/
structure Command (W : LenWidth) where
  len : LenWord W
  data : CmdData
deriving DecidableEq, Repr

end Sys2Proof
end

