-- ==== Sys2Proof/WellFormed.lean ====
section
/-! DEFINITION. Which terms of `Instr` are instructions of a PTE. -/

namespace Sys2Proof

/-- A TRANSMIT's length fits the `LEN_W` bits of `cmd_len` (R55). SYM_INVALID names only a byte that neither SYM0 nor
SYM1 matches (R70, R97). Every other term's fields are exactly as wide as its row's open bits. -/
def WellFormed (W : LenWidth) : Instr → Bool
  | .transmit cmdLen _ => decide (cmdLen < 2 ^ W.val)
  | .symInvalid c => c != 0x30#8 && c != 0x31#8
  | _ => true

end Sys2Proof
end

