-- ==== Sys2Proof/Decode.lean ====
section
/-! DEFINITION. The decoder and the encoder: words (R54, R56, R58, R60), their byte images, and the opcode
table's rows with their priority (R69, R70). -/

namespace Sys2Proof

/-- The code of a state in `st` (R60). -/
def FsmState.code : FsmState → BitVec 4
  | .idle => 0#4
  | .claim => 1#4
  | .validate => 2#4
  | .agcHigh => 3#4
  | .agcLow => 4#4
  | .symHigh => 5#4
  | .symLow => 6#4
  | .release => 7#4
  | .done => 8#4
  | .rejected => 9#4
  | .illegal k => BitVec.ofNat 4 (10 + k.val)

/-- The state a code of `st` names (R60). -/
def FsmState.ofCode (c : BitVec 4) : FsmState :=
  match c with
  | 0#4 => .idle
  | 1#4 => .claim
  | 2#4 => .validate
  | 3#4 => .agcHigh
  | 4#4 => .agcLow
  | 5#4 => .symHigh
  | 6#4 => .symLow
  | 7#4 => .release
  | 8#4 => .done
  | 9#4 => .rejected
  | 10#4 => .illegal 0
  | 11#4 => .illegal 1
  | 12#4 => .illegal 2
  | 13#4 => .illegal 3
  | 14#4 => .illegal 4
  | _ => .illegal 5

/-- The numeric code of an error (R122). -/
def ErrorCode.code : ErrorCode → BitVec 2
  | .none => 0#2
  | .invalidCommandLength => 1#2
  | .invalidSymbol => 2#2
  | .pinUnavailable => 3#2

/-- `dec(c)`: the symbol a byte encodes, compared on all eight bits; `none` is INVALID (R16, R58). -/
def dec (c : Byte) : Option Symbol :=
  if c = 0x30#8 then some .zero else if c = 0x31#8 then some .one else none

/-- The CTRL rows (R56): bit 1 is `rst`, bit 0 is `start`. -/
def decodeCtrl {W : LenWidth} (w : BitVec 2) (cmdLen : LenWord W) (cmdData : CmdData) : Instr :=
  match w with
  | 0#2 => .nop
  | 1#2 => .transmit cmdLen.toNat cmdData
  | 2#2 => .reset false
  | _ => .reset true

/-- The SYM rows (R58, R70). -/
def decodeSym (c : Byte) : Instr :=
  match dec c with
  | some .zero => .sym0
  | some .one => .sym1
  | none => .symInvalid c

/-- The STATE rows (R60, R69). -/
def decodeState (c : BitVec 4) : Instr :=
  match c with
  | 0#4 => .idle
  | 1#4 => .claim
  | 2#4 => .validate
  | 3#4 => .agcHigh
  | 4#4 => .agcLow
  | 5#4 => .symHigh
  | 6#4 => .symLow
  | 7#4 => .release
  | 8#4 => .done
  | 9#4 => .rejected
  | 10#4 => .illegalState1011 0#1
  | 11#4 => .illegalState1011 1#1
  | 12#4 => .illegalState1215 0#2
  | 13#4 => .illegalState1215 1#2
  | 14#4 => .illegalState1215 2#2
  | _ => .illegalState1215 3#2

/-- Decoding is total: every word of every format has a meaning (R71). -/
def decode {W : LenWidth} : Code W → Instr
  | .ctrl w cmdLen cmdData => decodeCtrl w cmdLen cmdData
  | .sym c => decodeSym c
  | .state c => decodeState c

/-- A length as `cmd_len` presents it: a length beyond `LEN_W` bits is presented as all ones (R55, U8). Log entry 17. -/
def lenOperand (W : LenWidth) (n : Nat) : LenWord W := BitVec.ofNat W.val (min n (2 ^ W.val - 1))

/-- The word of an instruction; a NOP or RESET reads no CMD operand, and zeros stand there (R55, R56, R58, R60). -/
def encode (W : LenWidth) : Instr → Code W
  | .nop => .ctrl 0#2 0 0
  | .transmit cmdLen cmdData => .ctrl 1#2 (lenOperand W cmdLen) cmdData
  | .reset false => .ctrl 2#2 0 0
  | .reset true => .ctrl 3#2 0 0
  | .sym0 => .sym 0x30#8
  | .sym1 => .sym 0x31#8
  | .symInvalid c => .sym c
  | .idle => .state 0#4
  | .claim => .state 1#4
  | .validate => .state 2#4
  | .agcHigh => .state 3#4
  | .agcLow => .state 4#4
  | .symHigh => .state 5#4
  | .symLow => .state 6#4
  | .release => .state 7#4
  | .done => .state 8#4
  | .rejected => .state 9#4
  | .illegalState1011 low => .state (0b101#3 ++ low)
  | .illegalState1215 low => .state (0b11#2 ++ low)

/-- The format a word has. -/
def Code.format {W : LenWidth} : Code W → Format
  | .ctrl _ _ _ => .ctrl
  | .sym _ => .sym
  | .state _ => .state

/-! Byte images. DESIGN CHOICE, log entry 12: PTE stores no word (R41); an image is one byte for the CTRL, SYM
or STATE word with unused high bits zero, and a CTRL image goes on with `cmd_len` in as many bytes as `LEN_W` bits take
and `cmd_data` in 25, byte `i` being character `i` (R42), the least significant byte first. Safe. -/

/-- How many bytes `LEN_W` bits take. -/
def lenBytes (W : LenWidth) : Nat := (W.val + 7) / 8

/-- How many bytes the image of a word has. -/
def Format.imageBytes (W : LenWidth) : Format → Nat
  | .ctrl => 1 + lenBytes W + 25
  | .sym => 1
  | .state => 1

/-- Why a list of bytes is the image of no word. -/
inductive DecodeError where
  /-- The list is shorter or longer than the format's image. -/
  | wrongSize
  /-- A bit above the format's width (R53) is 1. -/
  | unusedBitSet
deriving DecidableEq, Repr

/-- The byte image of a word. -/
def Code.bytes {W : LenWidth} : Code W → List Byte
  | .ctrl w cmdLen cmdData => w.setWidth 8 :: (leBytes (lenBytes W) cmdLen.toNat ++ leBytes 25 cmdData.toNat)
  | .sym c => [c]
  | .state c => [c.setWidth 8]

/-- The word an image holds, or why it holds none. -/
def Code.ofBytes (W : LenWidth) (f : Format) (bs : List Byte) : Except DecodeError (Code W) :=
  match bs with
  | [] => .error .wrongSize
  | b :: rest =>
    match f with
    | .ctrl =>
      if rest.length ≠ lenBytes W + 25 then .error .wrongSize
      else if 4 ≤ b.toNat ∨ 2 ^ W.val ≤ leNat (rest.take (lenBytes W)) then .error .unusedBitSet
      else .ok (.ctrl (b.setWidth 2) (BitVec.ofNat _ (leNat (rest.take (lenBytes W))))
        (BitVec.ofNat _ (leNat (rest.drop (lenBytes W)))))
    | .sym => if rest.length ≠ 0 then .error .wrongSize else .ok (.sym b)
    | .state =>
      if rest.length ≠ 0 then .error .wrongSize
      else if 16 ≤ b.toNat then .error .unusedBitSet
      else .ok (.state (b.setWidth 4))

/-- The decoder on bytes: total, and rejecting by name what is no image of a word. -/
def decodeBytes (W : LenWidth) (f : Format) (bs : List Byte) : Except DecodeError Instr :=
  match Code.ofBytes W f bs with
  | .ok c => .ok (decode c)
  | .error e => .error e

/-- The encoder on bytes. -/
def encodeBytes (W : LenWidth) (i : Instr) : List Byte := (encode W i).bytes

/-- The format of a table word of `nbits` bits. Exactly 2 bits is CTRL and exactly 4 is STATE; a whole byte
carries no format, and is read in the order in which PTE decodes (R54): CTRL where it fits two bits, else STATE
where it fits four, else SYM; 224 bits is a whole CTRL image at `LEN_W` 16. DESIGN CHOICE, log entry 12. -/
def tableFormat (nbits w : Nat) : Option Format :=
  if nbits = 2 then some .ctrl
  else if nbits = 4 then some .state
  else if nbits = 8 then
    if w < 4 then some .ctrl else if w < 16 then some .state else some .sym
  else if nbits = 224 then some .ctrl
  else none

/-- The instruction the decoder reads from a word numbered as the opcode table numbers it, the operand bits
above `nbits` being zero; at the default `LEN_W`. -/
def decodeTableWord (nbits w : Nat) : Option Instr :=
  if 2 ^ nbits ≤ w then none
  else
    match tableFormat nbits w with
    | none => none
    | some f => (decodeBytes Config.defaultBuild.lenW f (leBytes (f.imageBytes Config.defaultBuild.lenW) w)).toOption

/-! The opcode table (R69). -/

/-- A row: a word `w` of the format matches when `w` agrees with `pattern` on the bits of `mask`. -/
structure OpcodeRow where
  format : Format
  pattern : BitVec 8
  mask : BitVec 8
  mnemonic : String
deriving DecidableEq, Repr

/-- The rows of CTRL and SYM, the most specific mask of a group first (R69, R70). -/
def ctrlSymRows : List OpcodeRow :=
  [⟨.ctrl, 0b00#8, 0b11#8, "NOP"⟩, ⟨.ctrl, 0b01#8, 0b11#8, "TRANSMIT"⟩, ⟨.ctrl, 0b10#8, 0b10#8, "RESET"⟩,
   ⟨.sym, 0x30#8, 0xFF#8, "SYM0"⟩, ⟨.sym, 0x31#8, 0xFF#8, "SYM1"⟩, ⟨.sym, 0x00#8, 0x00#8, "SYM_INVALID"⟩]

/-- The rows of STATE (R69). -/
def stateRows : List OpcodeRow :=
  [⟨.state, 0#8, 0xF#8, "IDLE"⟩, ⟨.state, 1#8, 0xF#8, "CLAIM"⟩, ⟨.state, 2#8, 0xF#8, "VALIDATE"⟩,
   ⟨.state, 3#8, 0xF#8, "AGC_HIGH"⟩, ⟨.state, 4#8, 0xF#8, "AGC_LOW"⟩, ⟨.state, 5#8, 0xF#8, "SYM_HIGH"⟩,
   ⟨.state, 6#8, 0xF#8, "SYM_LOW"⟩, ⟨.state, 7#8, 0xF#8, "RELEASE"⟩, ⟨.state, 8#8, 0xF#8, "DONE"⟩,
   ⟨.state, 9#8, 0xF#8, "REJECTED"⟩, ⟨.state, 0b1010#8, 0b1110#8, "ILLEGAL_STATE_10_11"⟩,
   ⟨.state, 0b1100#8, 0b1100#8, "ILLEGAL_STATE_12_15"⟩]

/-- All 18 rows (R72). -/
def opcodeRows : List OpcodeRow := ctrlSymRows ++ stateRows

/-- The bits of a word that its row is matched on. -/
def Code.tableBits {W : LenWidth} : Code W → BitVec 8
  | .ctrl w _ _ => w.setWidth 8
  | .sym c => c
  | .state c => c.setWidth 8

/-- Whether a row matches a word (R69). -/
def OpcodeRow.covers {W : LenWidth} (r : OpcodeRow) (c : Code W) : Bool :=
  r.format == c.format && (c.tableBits &&& r.mask) == r.pattern

/-- The mnemonic of an instruction's row, as the opcode table spells it. -/
def Instr.mnemonic : Instr → String
  | .nop => "NOP"
  | .transmit _ _ => "TRANSMIT"
  | .reset _ => "RESET"
  | .sym0 => "SYM0"
  | .sym1 => "SYM1"
  | .symInvalid _ => "SYM_INVALID"
  | .idle => "IDLE"
  | .claim => "CLAIM"
  | .validate => "VALIDATE"
  | .agcHigh => "AGC_HIGH"
  | .agcLow => "AGC_LOW"
  | .symHigh => "SYM_HIGH"
  | .symLow => "SYM_LOW"
  | .release => "RELEASE"
  | .done => "DONE"
  | .rejected => "REJECTED"
  | .illegalState1011 _ => "ILLEGAL_STATE_10_11"
  | .illegalState1215 _ => "ILLEGAL_STATE_12_15"

end Sys2Proof
end

