-- ==== Sys2Proof/Machine/State.lean ====
section
/-! DEFINITION. PTE's state: the registers of R20 at the widths the build parameters give them, the parameters
themselves, and the values the environment drives on the input ports; the reasons a step can stop; the state after
reset. -/

namespace Sys2Proof.Machine

/-- The values on the input ports in one cycle, sampled at the rising edge that ends it (R36). `clk` is the
step itself. -/
structure Ports (W : LenWidth) where
  rst : Bool
  start : Bool
  cmdLen : LenWord W
  cmdData : CmdData
  pinAvail : Bool
deriving DecidableEq, Repr

/-- The registers and the inputs of a PTE built with the parameters `B`. A one-bit register is a `Bool`, `true` being 1,
HIGH for a level (R17). -/
structure Pte (B : Build) where
  /-- `st`, the FSM state (R20, R21). -/
  st : FsmState
  /-- `cmd_q`, the latched command (R20, R22). -/
  cmdQ : CmdData
  /-- `rep`, the index of the current repetition (R20, R23). -/
  rep : BitVec 3
  /-- `idx`, the index of the current symbol (R20, R24). -/
  idx : BitVec 5
  /-- `cnt`, `CNT_W` bits, the cycles left in the current pulse, less one (R12, R20, R25). -/
  cnt : BitVec (Config.cntW B.ticksPerUs)
  /-- `perr`, the error code of the transmission (R20, R26). -/
  perr : ErrorCode
  /-- `pinfo`, the error information (R20, R27). -/
  pinfo : LenWord B.lenW
  /-- `pin_out`, the level driven toward the pin (R20, R28). -/
  pinOut : Bool
  /-- `pin_claim`, 1 while PTE holds the pin (R20, R29). -/
  pinClaim : Bool
  /-- What the host and the pin arbiter drive in this cycle and the cycles after it, this cycle first (R18).
  A cycle beyond the list has free values on every port. The model's own field: log entry 3. -/
  driven : List (Ports B.lenW)
  /-- How many edges have passed since reset; it names the cycle a free value belongs to. The model's own
  field: log entry 4. -/
  cycle : Nat
deriving DecidableEq, Repr

/-- Everything the spec gives the machine. -/
structure State where
  /-- The parameters PTE is built with, written by no step (R9, R11). Log entries 1 and 2. -/
  build : Build
  /-- Its registers and inputs. -/
  pte : Pte build
deriving DecidableEq, Repr

/-- The faults of a step. There is none: the step is total and never faults (R83). An error of PTE is a next
state (R130), and the codes 10 to 15 of `st` recover (R94). -/
inductive Fault where
deriving DecidableEq, Repr

/-- The refusals of a step. -/
inductive Refusal where
  /-- Raised by `exec` for an instruction that has no meaning yet. Safe. No arm raises it. -/
  | notModelled (mnemonic : String)
deriving DecidableEq, Repr

/-- The registers after a reset edge that follows power-up, for any build parameters (R20, R143). `cmd_q` is not reset:
that it holds zeros is DESIGN CHOICE, log entry 5, unsafe. Nothing is driven yet, so the inputs are free. -/
def Pte.reset (B : Build) : Pte B where
  st := .idle
  cmdQ := 0
  rep := 0
  idx := 0
  cnt := 0
  perr := .none
  pinfo := 0
  pinOut := false
  pinClaim := false
  driven := []
  cycle := 0

/-- The machine right after reset, at the spec's defaults of the build parameters (R9, R11, R20). Log entries 1, 2
and 14. -/
def State.reset : State := ⟨Config.defaultBuild, Pte.reset Config.defaultBuild⟩

end Sys2Proof.Machine
end

