-- ==== Sys2Proof/Machine/Operands.lean ====
section
/-! DEFINITION. What the steps read: the input ports, the bytes of the command, the symbols they encode, and the
hold counts these select. -/

namespace Sys2Proof.Machine

variable {B : Build}

/-- The ports of a cycle that nothing drives: free values of that cycle (R81, R82). -/
def undriven (W : LenWidth) (cycle : Nat) : Ports W where
  rst := Config.freeRst cycle
  start := Config.freeStart cycle
  cmdLen := Config.freeCmdLen W cycle
  cmdData := Config.freeCmdData cycle
  pinAvail := Config.freePinAvail cycle

/-- The input ports `j` cycles from now. -/
def Pte.portsIn (j : Nat) (s : Pte B) : Ports B.lenW := s.driven.getD j (undriven B.lenW (s.cycle + j))

/-- The input ports in this cycle (R36). -/
def Pte.ports (s : Pte B) : Ports B.lenW := s.portsIn 0

/-- The CMD operand beside `start` in this cycle, if `start` is 1 (R48, R55). -/
def Ports.command {W : LenWidth} (p : Ports W) : Option (Command W) :=
  if p.start then some ⟨p.cmdLen, p.cmdData⟩ else none

/-- Byte `i` of a command, bits `8*i+7 : 8*i` (R13, R42). -/
def cmdByte (q : CmdData) (i : Nat) : Byte := q.extractLsb' (8 * i) 8

/-- `cmd_q[i]`; beyond byte 24 there is none, and the value is free (log entry 7). -/
def Pte.symByte (s : Pte B) (i : Nat) : Byte :=
  if i < Config.nSym then cmdByte s.cmdQ i else Config.unstatedByte s.cycle i

/-- The lowest-indexed of a command's 25 bytes that is not a symbol (R88, R129). -/
def firstInvalid (q : CmdData) : Option Byte :=
  ((List.range Config.nSym).map (cmdByte q)).find? (fun c => (dec c).isNone)

/-- The operand categories of the pulse states (R61). -/
inductive PulseCategory where
  | agcH
  | agcL
  | short
  | long
deriving DecidableEq, Repr

/-- The hold count of a category, in cycles (R10, R61). -/
def holdCount (T : Ticks) : PulseCategory → Nat
  | .agcH => Config.nAgcHigh T
  | .agcL => Config.nAgcLow T
  | .short => Config.nShort T
  | .long => Config.nLong T

/-- The category of a symbol's HIGH phase (R59, R95, R96). -/
def highCategory : Symbol → PulseCategory
  | .zero => .short
  | .one => .long

/-- The category of a symbol's LOW phase (R59, R95, R96). -/
def lowCategory : Symbol → PulseCategory
  | .zero => .long
  | .one => .short

/-- `hi_dur(b)` (R16). -/
def hiDur (T : Ticks) (b : Symbol) : Nat := holdCount T (highCategory b)

/-- `lo_dur(b)` (R16). -/
def loDur (T : Ticks) (b : Symbol) : Nat := holdCount T (lowCategory b)

/-- `cnt` as SYM_HIGH loads it when the byte is no symbol: free (log entry 6). -/
def Pte.unstatedLowCount (s : Pte B) (c : Byte) : BitVec (Config.cntW B.ticksPerUs) :=
  Config.unstatedHold B.ticksPerUs s.cycle c

/-- `idx + 1`; free where five bits cannot hold it (R109, log entry 8). -/
def Pte.idxSucc (s : Pte B) : BitVec 5 :=
  if s.idx = 31#5 then Config.unstatedIdx s.cycle else s.idx + 1#5

/-- `rep + 1`; free where three bits cannot hold it (R109, log entry 8). -/
def Pte.repSucc (s : Pte B) : BitVec 3 :=
  if s.rep = 7#3 then Config.unstatedRep s.cycle else s.rep + 1#3

end Sys2Proof.Machine
end

