-- ==== Sys2Proof/Machine/Flags.lean ====
section
/-! DEFINITION. The outputs: combinational functions of the registers, none of an input (R33 to R35, R37). -/

namespace Sys2Proof

/-- The states of a transmission in progress (R33). -/
def FsmState.isBusy : FsmState → Bool
  | .claim | .validate | .agcHigh | .agcLow | .symHigh | .symLow | .release => true
  | .idle | .done | .rejected | .illegal _ => false

/-- The states in which TRANSMIT is accepted (R57). -/
def FsmState.acceptsStart : FsmState → Bool
  | .idle | .done | .rejected => true
  | .claim | .validate | .agcHigh | .agcLow | .symHigh | .symLow | .release | .illegal _ => false

/-- The states in which a hold is counted (R60, R106). -/
def FsmState.isPulse : FsmState → Bool
  | .agcHigh | .agcLow | .symHigh | .symLow => true
  | .idle | .claim | .validate | .release | .done | .rejected | .illegal _ => false

/-- The `pin_claim` column of the STATE format (R60, R110). -/
def FsmState.claims : FsmState → Bool
  | .validate | .agcHigh | .agcLow | .symHigh | .symLow | .release => true
  | .idle | .claim | .done | .rejected | .illegal _ => false

/-- The `pin_out` column of the STATE format (R28, R60). -/
def FsmState.isHigh : FsmState → Bool
  | .agcHigh | .symHigh => true
  | .idle | .claim | .validate | .agcLow | .symLow | .release | .done | .rejected | .illegal _ => false

/-- Whether `st` holds one of the codes 10 to 15 (R64, R94). -/
def FsmState.isIllegal : FsmState → Bool
  | .illegal _ => true
  | .idle | .claim | .validate | .agcHigh | .agcLow | .symHigh | .symLow | .release | .done | .rejected => false

end Sys2Proof

namespace Sys2Proof.Machine

variable {B : Build}

/-- `busy` (R33). -/
def Pte.busy (s : Pte B) : Bool := s.st.isBusy

/-- `done` (R33). -/
def Pte.doneFlag (s : Pte B) : Bool := s.st == .done

/-- `err` (R33). -/
def Pte.err (s : Pte B) : Bool := s.st == .rejected

/-- `err_code` (R34). -/
def Pte.errCode (s : Pte B) : BitVec 2 := if s.st = .rejected then s.perr.code else 0#2

/-- `err_info` (R34). -/
def Pte.errInfo (s : Pte B) : LenWord B.lenW := if s.st = .rejected then s.pinfo else 0

/-- The output ports (R37). -/
structure Outputs (W : LenWidth) where
  pinOut : Bool
  pinClaim : Bool
  pinId : BitVec 6
  busy : Bool
  doneFlag : Bool
  err : Bool
  errCode : BitVec 2
  errInfo : LenWord W
  stateO : BitVec 4
  repO : BitVec 3
  idxO : BitVec 5
deriving DecidableEq, Repr

/-- What the host and the arbiter read in a cycle (R35, R37, R76); reading is not a step. -/
def Pte.outputs (s : Pte B) : Outputs B.lenW where
  pinOut := s.pinOut
  pinClaim := s.pinClaim
  pinId := Config.pinId
  busy := s.busy
  doneFlag := s.doneFlag
  err := s.err
  errCode := s.errCode
  errInfo := s.errInfo
  stateO := s.st.code
  repO := s.rep
  idxO := s.idx

end Sys2Proof.Machine
end

