-- ==== Sys2Proof/Machine/Ops.lean ====
section
/-! DEFINITION. The named operations the steps are made of: the Pulse Output capability (R112), error entry (R130),
the accepted TRANSMIT (R73), reset (R142), recovery (R94), and the passing of a clock cycle (R14). -/

namespace Sys2Proof.Machine

variable {B : Build}

/-- `set_level`: the level on the output from the next cycle (R115). -/
def Pte.setLevel (level : Bool) (s : Pte B) : Pte B := { s with pinOut := level }

/-- The load of a `hold`: `cnt <- n - 1` as an unsigned `CNT_W`-bit value (R62, R116). -/
def Pte.loadHold (n : Nat) (s : Pte B) : Pte B := { s with cnt := BitVec.ofNat _ (n - 1) }

/-- One cycle of a `hold` that is not over (R116). -/
def Pte.holdTick (s : Pte B) : Pte B := { s with cnt := s.cnt - 1 }

/-- `st <- t` (R14). -/
def Pte.goto (t : FsmState) (s : Pte B) : Pte B := { s with st := t }

/-- `raise e(info)`, the one way a step enters an error after a TRANSMIT was accepted: straight to REJECTED when
the pin is not claimed, through RELEASE with the pin LOW when it is (R16, R130). Log entry 9. -/
def Pte.raise (e : ErrorCode) (info : LenWord B.lenW) (s : Pte B) : Pte B :=
  if s.pinClaim then { s with perr := e, pinfo := info, pinOut := false, st := .release }
  else { s with perr := e, pinfo := info, st := .rejected }

/-- `configure` when the arbiter answers 1: the pin is claimed and LOW (R113, R114). -/
def Pte.claimPin (s : Pte B) : Pte B := { s with pinClaim := true, pinOut := false }

/-- `release`: the pin is LOW and no longer claimed (R117). -/
def Pte.releasePin (s : Pte B) : Pte B := { s with pinOut := false, pinClaim := false }

/-- The accepted TRANSMIT: the command is latched whole and the counters cleared. The only legal length is 25 (R63);
any other is InvalidCommandLength at once, with the pin untouched (R73, R123). -/
def Pte.accept (c : Command B.lenW) (s : Pte B) : Pte B :=
  if c.len = 25 then
    { s with cmdQ := c.data, rep := 0, idx := 0, cnt := 0, perr := .none, pinfo := 0, st := .claim }
  else
    { s with cmdQ := c.data, rep := 0, idx := 0, cnt := 0, perr := .invalidCommandLength, pinfo := c.len,
             st := .rejected }

/-- The reset step: every register but `cmd_q` (R142). -/
def Pte.resetRegs (s : Pte B) : Pte B :=
  { s with st := .idle, pinOut := false, pinClaim := false, rep := 0, idx := 0, cnt := 0, perr := .none,
           pinfo := 0 }

/-- The recovery step of the codes 10 to 15 (R94). -/
def Pte.recover (s : Pte B) : Pte B :=
  { s with pinOut := false, pinClaim := false, perr := .none, pinfo := 0, st := .idle }

/-- The beginning of the AGC-low pulse: LOW for `N_AGCL` (R89, R92). -/
def Pte.beginAgcLow (s : Pte B) : Pte B :=
  ((s.setLevel false).loadHold (holdCount B.ticksPerUs .agcL)).goto .agcLow

/-- The beginning of a symbol: HIGH for `hi_dur(b)` (R90, R92). -/
def Pte.beginHigh (b : Symbol) (s : Pte B) : Pte B :=
  ((s.setLevel true).loadHold (hiDur B.ticksPerUs b)).goto .symHigh

/-- The second phase of a symbol: LOW for `lo_dur(b)` (R91). -/
def Pte.beginLow (b : Symbol) (s : Pte B) : Pte B :=
  ((s.setLevel false).loadHold (loDur B.ticksPerUs b)).goto .symLow

/-- The second phase after a byte that is no symbol: the level and the state are as R91 says, the hold count is
unstated and free (log entry 6). -/
def Pte.beginLowUnstated (c : Byte) (s : Pte B) : Pte B :=
  { (s.setLevel false).goto .symLow with cnt := s.unstatedLowCount c }

/-- InvalidSymbol for the byte `c` (R88, R124). -/
def Pte.raiseInvalidSymbol (c : Byte) (s : Pte B) : Pte B := s.raise .invalidSymbol (c.setWidth B.lenW.val)

/-- The passing of a cycle: the environment's next values are on the ports (R14, R36). -/
def Pte.tick (s : Pte B) : Pte B := { s with driven := s.driven.tail, cycle := s.cycle + 1 }

end Sys2Proof.Machine
end

