-- ==== Sys2Proof/Machine/Sequencer.lean ====
section
/-! DEFINITION. The state steps (R84 to R94), one function per row of STATE, and the step selected by `st` (R83). -/

namespace Sys2Proof.Machine

variable {B : Build}

/-- A state of rest: an accepted TRANSMIT if there is one, else nothing changes (R84). -/
def restStep (cmd : Option (Command B.lenW)) (s : Pte B) : Pte B :=
  match cmd with
  | some c => s.accept c
  | none => s

/-- IDLE (R84). -/
def idleStep (cmd : Option (Command B.lenW)) (s : Pte B) : Pte B := restStep cmd s

/-- DONE (R85). -/
def doneStep (cmd : Option (Command B.lenW)) (s : Pte B) : Pte B := restStep cmd s

/-- REJECTED (R86). -/
def rejectedStep (cmd : Option (Command B.lenW)) (s : Pte B) : Pte B := restStep cmd s

/-- CLAIM (R87, R113). -/
def claimStep (s : Pte B) : Pte B :=
  if s.ports.pinAvail then (s.claimPin).goto .validate else s.raise .pinUnavailable 0

/-- VALIDATE (R88). -/
def validateStep (s : Pte B) : Pte B :=
  match firstInvalid s.cmdQ with
  | some c => s.raiseInvalidSymbol c
  | none => ((s.setLevel true).loadHold (holdCount B.ticksPerUs .agcH)).goto .agcHigh

/-- AGC_HIGH (R89). -/
def agcHighStep (s : Pte B) : Pte B :=
  if s.cnt ≠ 0 then s.holdTick else { s.beginAgcLow with rep := 0 }

/-- AGC_LOW (R90). -/
def agcLowStep (s : Pte B) : Pte B :=
  if s.cnt ≠ 0 then s.holdTick
  else
    match dec (s.symByte 0) with
    | none => { s with idx := 0 }.raiseInvalidSymbol (s.symByte 0)
    | some b => { s with idx := 0 }.beginHigh b

/-- SYM_HIGH (R91); the byte is valid in every state that reset reaches (R104), and the hold is free where it is
not (log entry 6). -/
def symHighStep (s : Pte B) : Pte B :=
  if s.cnt ≠ 0 then s.holdTick
  else
    match dec (s.symByte s.idx.toNat) with
    | some b => s.beginLow b
    | none => s.beginLowUnstated (s.symByte s.idx.toNat)

/-- SYM_LOW: the next symbol, the next repetition, or the end of the sixth (R92). -/
def symLowStep (s : Pte B) : Pte B :=
  if s.cnt ≠ 0 then s.holdTick
  else if s.idx ≠ 24#5 then
    match dec (s.symByte (s.idx.toNat + 1)) with
    | none => { s with idx := s.idxSucc }.raiseInvalidSymbol (s.symByte (s.idx.toNat + 1))
    | some b => { s with idx := s.idxSucc }.beginHigh b
  else if s.rep ≠ 5#3 then { s.beginAgcLow with rep := s.repSucc, idx := 0 }
  else (s.setLevel false).goto .release

/-- RELEASE (R93, R117). -/
def releaseStep (s : Pte B) : Pte B :=
  s.releasePin.goto (if s.perr = .none then .done else .rejected)

/-- The codes 10 and 11 (R94). -/
def illegalStep1011 (s : Pte B) : Pte B := s.recover

/-- The codes 12 to 15 (R94). -/
def illegalStep1215 (s : Pte B) : Pte B := s.recover

/-- The state step for `st`, given the command that `start` presents, which only the states of rest
read (R57, R74, R83). -/
def stateStep (cmd : Option (Command B.lenW)) (s : Pte B) : Pte B :=
  match s.st with
  | .idle => idleStep cmd s
  | .claim => claimStep s
  | .validate => validateStep s
  | .agcHigh => agcHighStep s
  | .agcLow => agcLowStep s
  | .symHigh => symHighStep s
  | .symLow => symLowStep s
  | .release => releaseStep s
  | .done => doneStep cmd s
  | .rejected => rejectedStep cmd s
  | .illegal k => if k.val < 2 then illegalStep1011 s else illegalStep1215 s

/-- IDLE as a row (R84): its operands are the ports of this cycle. Log entry 11 says how a state step stands as an
instruction. -/
def execIdle (s : State) : Host.Outcome State Fault Refusal :=
  .next { s with pte := idleStep s.pte.ports.command s.pte }

/-- CLAIM as a row (R87). -/
def execClaim (s : State) : Host.Outcome State Fault Refusal :=
  .next { s with pte := claimStep s.pte }

/-- VALIDATE as a row (R88). -/
def execValidate (s : State) : Host.Outcome State Fault Refusal :=
  .next { s with pte := validateStep s.pte }

/-- AGC_HIGH as a row (R89). -/
def execAgcHigh (s : State) : Host.Outcome State Fault Refusal :=
  .next { s with pte := agcHighStep s.pte }

/-- AGC_LOW as a row (R90). -/
def execAgcLow (s : State) : Host.Outcome State Fault Refusal :=
  .next { s with pte := agcLowStep s.pte }

/-- SYM_HIGH as a row (R91). -/
def execSymHigh (s : State) : Host.Outcome State Fault Refusal :=
  .next { s with pte := symHighStep s.pte }

/-- SYM_LOW as a row (R92). -/
def execSymLow (s : State) : Host.Outcome State Fault Refusal :=
  .next { s with pte := symLowStep s.pte }

/-- RELEASE as a row (R93). -/
def execRelease (s : State) : Host.Outcome State Fault Refusal :=
  .next { s with pte := releaseStep s.pte }

/-- DONE as a row (R85): its operands are the ports of this cycle. -/
def execDone (s : State) : Host.Outcome State Fault Refusal :=
  .next { s with pte := doneStep s.pte.ports.command s.pte }

/-- REJECTED as a row (R86): its operands are the ports of this cycle. -/
def execRejected (s : State) : Host.Outcome State Fault Refusal :=
  .next { s with pte := rejectedStep s.pte.ports.command s.pte }

/-- ILLEGAL_STATE_10_11 as a row (R94). -/
def execIllegalState1011 (s : State) : Host.Outcome State Fault Refusal :=
  .next { s with pte := illegalStep1011 s.pte }

/-- ILLEGAL_STATE_12_15 as a row (R94). -/
def execIllegalState1215 (s : State) : Host.Outcome State Fault Refusal :=
  .next { s with pte := illegalStep1215 s.pte }

end Sys2Proof.Machine
end

