-- ==== Sys2Proof/Machine/Ctrl.lean ====
section
/-! DEFINITION. The host's control operations: NOP (R75), TRANSMIT (R73, R74) and RESET (R142). -/

namespace Sys2Proof.Machine

/-- NOP: the state step with no start (R75). -/
def execNop (s : State) : Host.Outcome State Fault Refusal :=
  .next { s with pte := stateStep none s.pte }

/-- TRANSMIT: accepted in IDLE, DONE and REJECTED (R73, R77); elsewhere the state step as under NOP (R57, R74). A length
that `LEN_W` bits do not hold is presented as all ones (R55, U8; log entry 17). -/
def execTransmit (cmdLen : Nat) (cmdData : CmdData) (s : State) : Host.Outcome State Fault Refusal :=
  .next { s with pte := stateStep (some ⟨lenOperand s.build.lenW cmdLen, cmdData⟩) s.pte }

/-- RESET, from any state and whatever `start` is (R142, R144). -/
def execReset (s : State) : Host.Outcome State Fault Refusal :=
  .next { s with pte := s.pte.resetRegs }

end Sys2Proof.Machine
end

