-- ==== Sys2Proof/Machine/Sym.lean ====
section
/-! DEFINITION. The symbol operations SYM0, SYM1 and SYM_INVALID (R95 to R97): what the byte that the current state
step reads does in that step. Log entry 10 says how a symbol stands as an instruction. -/

namespace Sys2Proof.Machine

variable {B : Build}

/-- What the current state step reads a command byte for (R54, R61). -/
inductive SymbolUse where
  /-- No byte is read in this cycle. -/
  | unread
  /-- VALIDATE checks the byte (R88). -/
  | check
  /-- The exit of AGC_LOW, or of SYM_LOW before symbol 24, begins the byte's HIGH phase (R90, R92). -/
  | highPhase
  /-- The exit of SYM_HIGH begins the byte's LOW phase (R91). -/
  | lowPhase
deriving DecidableEq, Repr

/-- The use of a command byte in this cycle: pulse states read one only when the hold is over (R90 to R92). -/
def Pte.symbolUse (s : Pte B) : SymbolUse :=
  match s.st with
  | .validate => .check
  | .agcLow => if s.cnt = 0 then .highPhase else .unread
  | .symHigh => if s.cnt = 0 then .lowPhase else .unread
  | .symLow => if s.cnt = 0 ∧ s.idx ≠ 24#5 then .highPhase else .unread
  | .idle | .claim | .agcHigh | .release | .done | .rejected | .illegal _ => .unread

/-- A valid symbol: it passes the check, or selects the hold of the phase that begins (R95, R96). -/
def Pte.validSymbol (b : Symbol) (s : Pte B) : Pte B :=
  match s.symbolUse with
  | .unread => s
  | .check => s
  | .highPhase => s.beginHigh b
  | .lowPhase => s.beginLow b

/-- A byte that is no symbol: InvalidSymbol where the step checks for it (R88, R90, R92, R97); SYM_HIGH does not,
and its hold is then unstated (R91, log entry 6). -/
def Pte.invalidSymbol (c : Byte) (s : Pte B) : Pte B :=
  match s.symbolUse with
  | .unread => s
  | .check => s.raiseInvalidSymbol c
  | .highPhase => s.raiseInvalidSymbol c
  | .lowPhase => s.beginLowUnstated c

/-- SYM0 (R95). -/
def execSym0 (s : State) : Host.Outcome State Fault Refusal := .next { s with pte := s.pte.validSymbol .zero }

/-- SYM1 (R96). -/
def execSym1 (s : State) : Host.Outcome State Fault Refusal := .next { s with pte := s.pte.validSymbol .one }

/-- SYM_INVALID (R97). -/
def execSymInvalid (c : Byte) (s : State) : Host.Outcome State Fault Refusal :=
  .next { s with pte := s.pte.invalidSymbol c }

end Sys2Proof.Machine
end

