-- ==== Sys2Proof/Machine/Dispatch.lean ====
section
/-! DEFINITION. The meaning of every instruction: one arm per constructor of `Instr`. -/

namespace Sys2Proof.Machine

def exec (i : Instr) (s : State) : Host.Outcome State Fault Refusal :=
  match i with
  | .nop => Sys2Proof.Machine.execNop s
  | .transmit cmdLen cmdData => Sys2Proof.Machine.execTransmit cmdLen cmdData s
  | .reset _ => Sys2Proof.Machine.execReset s
  | .sym0 => Sys2Proof.Machine.execSym0 s
  | .sym1 => Sys2Proof.Machine.execSym1 s
  | .symInvalid c => Sys2Proof.Machine.execSymInvalid c s
  | .idle => Sys2Proof.Machine.execIdle s
  | .claim => Sys2Proof.Machine.execClaim s
  | .validate => Sys2Proof.Machine.execValidate s
  | .agcHigh => Sys2Proof.Machine.execAgcHigh s
  | .agcLow => Sys2Proof.Machine.execAgcLow s
  | .symHigh => Sys2Proof.Machine.execSymHigh s
  | .symLow => Sys2Proof.Machine.execSymLow s
  | .release => Sys2Proof.Machine.execRelease s
  | .done => Sys2Proof.Machine.execDone s
  | .rejected => Sys2Proof.Machine.execRejected s
  | .illegalState1011 _ => Sys2Proof.Machine.execIllegalState1011 s
  | .illegalState1215 _ => Sys2Proof.Machine.execIllegalState1215 s

end Sys2Proof.Machine
end

