-- ==== Sys2Proof/Machine/Fetch.lean ====
section
/-! DEFINITION. How the operation of a cycle is read off the input ports (R54, R56), and how one is put where the
next step reads it. -/

namespace Sys2Proof.Machine

variable {B : Build}

/-- The CTRL word on the ports: bit 1 is `rst`, bit 0 is `start` (R56). -/
def Ports.ctrlWord {W : LenWidth} (p : Ports W) : BitVec 2 := BitVec.ofBool p.rst ++ BitVec.ofBool p.start

/-- The code on the ports in this cycle: CTRL with its CMD operand (R55, R56). -/
def Pte.fetchCode (s : Pte B) : Code B.lenW := .ctrl s.ports.ctrlWord s.ports.cmdLen s.ports.cmdData

/-- The operation of this cycle (R54). -/
def Pte.fetch (s : Pte B) : Instr := decode s.fetchCode

/-- The ports of this cycle replaced. -/
def Pte.drive (p : Ports B.lenW) (s : Pte B) : Pte B := { s with driven := p :: s.driven.tail }

/-- A word put where the next step decodes it (log entry 13): a CTRL word on the ports; a STATE code in `st`,
under NOP; a SYM byte as byte 0 of the latched command at the exit of AGC_LOW, which reads it (R90), under NOP. -/
def Pte.place (c : Code B.lenW) (s : Pte B) : Pte B :=
  match c with
  | .ctrl w cmdLen cmdData =>
    s.drive { s.ports with rst := w.getLsbD 1, start := w.getLsbD 0, cmdLen := cmdLen, cmdData := cmdData }
  | .state code => { s.drive { s.ports with rst := false, start := false } with st := FsmState.ofCode code }
  | .sym b =>
    { s.drive { s.ports with rst := false, start := false } with
      st := .agcLow, cnt := 0, idx := 0, pinClaim := true, cmdQ := s.cmdQ.extractLsb' 8 192 ++ b }

/-- The instruction of a table word put where the next step reads it; nothing where the word is none. -/
def State.placeTableWord (s : State) (nbits w : Nat) : State :=
  match decodeTableWord nbits w with
  | some i => { s with pte := s.pte.place (encode s.build.lenW i) }
  | none => s

end Sys2Proof.Machine
end

