-- ==== Sys2Proof/Machine/Step.lean ====
section
/-! DEFINITION. One step per rising edge of `clk` (R83): the operation on the ports is executed on the registers
of this cycle, and the next cycle's values come onto the ports. -/

namespace Sys2Proof.Machine

/-- The step at a rising edge of `clk` (R83). -/
def step (s : State) : Host.Outcome State Fault Refusal :=
  match exec s.pte.fetch s with
  | .next t => .next { t with pte := t.pte.tick }
  | .fault f => .fault f
  | .refused r => .refused r

/-- The state with a table word's instruction where the next step reads it (log entry 13). -/
def State.withFetchWord (s : State) (nbits w : Nat) : State := s.placeTableWord nbits w

end Sys2Proof.Machine
end

