-- ==== Sys2Proof/Machine/Record.lean ====
section
/-! DEFINITION. What a test bench records: pulses as runs of one pulse state (R106, R120), the pulse list the
protocol asks for (R99), and the level periods on the wire (R103). -/

namespace Sys2Proof.Machine

/-- A pulse: its level, `true` being HIGH, and how many cycles it lasts (R106). -/
abbrev Pulse := Bool × Nat

/-- Whether a `state_o` code is that of a pulse state (R60). -/
def isPulseCode (c : BitVec 4) : Bool := (FsmState.ofCode c).isPulse

/-- What a test bench records of a cycle (R120). -/
structure Sample where
  pinClaim : Bool
  stateO : BitVec 4
  pinOut : Bool
deriving DecidableEq, Repr

/-- The sample of a cycle's outputs (R35, R120). -/
def Outputs.sample {W : LenWidth} (o : Outputs W) : Sample := ⟨o.pinClaim, o.stateO, o.pinOut⟩

/-- Whether a cycle belongs to a pulse: recorded while `pin_claim` is 1, in a pulse state (R106, R120). -/
def Sample.inPulse (o : Sample) : Bool := o.pinClaim && isPulseCode o.stateO

/-- One more cycle at the front of a list of pulses: it lengthens the first pulse when the cycle after it is of a pulse
too, in the same state (R106). -/
def recordCycle (o : Sample) (next : Option Sample) (ps : List Pulse) : List Pulse :=
  if o.inPulse then
    match next, ps with
    | some o', (level, n) :: rest =>
      if o'.inPulse && o'.stateO == o.stateO then (level, n + 1) :: rest else (o.pinOut, 1) :: ps
    | _, _ => (o.pinOut, 1) :: ps
  else ps

/-- The pulse list of the samples of consecutive cycles (R106, R120). Log entry 19. -/
def pulsesOf : List Sample → List Pulse
  | [] => []
  | o :: os => recordCycle o os.head? (pulsesOf os)

/-- The state of each of `n` cycles from this one on; it ends early at a fault or refusal. -/
def statesFor : Nat → State → List State
  | 0, _ => []
  | n + 1, s =>
    match step s with
    | .next t => s :: statesFor n t
    | .fault _ => [s]
    | .refused _ => [s]

/-- The samples of each of `n` cycles from this one on. -/
def recordFor (n : Nat) (s : State) : List Sample := (statesFor n s).map (fun t => t.pte.outputs.sample)

/-- The two pulses of a symbol byte, HIGH first (R59); none for a byte that is no symbol. -/
def symbolPulses (T : Ticks) (c : Byte) : List Pulse :=
  match dec c with
  | some b => [(true, hiDur T b), (false, loDur T b)]
  | none => []

/-- One repetition: the AGC-low pulse, then the 25 symbols in index order (R98, R99). -/
def repetitionPulses (T : Ticks) (q : CmdData) : List Pulse :=
  (false, holdCount T .agcL) :: (List.range Config.nSym).flatMap (fun i => symbolPulses T (cmdByte q i))

/-- The pulse list of a transmission: the AGC-high pulse once, then six repetitions (R99). -/
def framePulses (T : Ticks) (q : CmdData) : List Pulse :=
  (true, holdCount T .agcH) :: (List.replicate Config.nRep (repetitionPulses T q)).flatten

/-- The level periods on the wire: consecutive pulses of one level are one period (R103). -/
def levelPeriods : List Pulse → List Pulse
  | [] => []
  | p :: ps =>
    match levelPeriods ps with
    | [] => [p]
    | r :: rest => if r.1 = p.1 then (p.1, p.2 + r.2) :: rest else p :: r :: rest

/-- The cycles a list of pulses takes. -/
def totalCycles (ps : List Pulse) : Nat := (ps.map Prod.snd).sum

/-- The cycles of all pulses of a transmission (R102). -/
def frameCycles (T : Ticks) : Nat := 242410 * T.val

end Sys2Proof.Machine
end

