-- ==== Sys2Proof/Machine/Script.lean ====
section
/-! DEFINITION. The textual notation for programs of host operations (R67, R68) as data, and its running. It adds no
behaviour: every line drives the ports for some cycles, and `step` does the rest. -/

namespace Sys2Proof.Machine

/-- A line of a program (R67). -/
inductive ScriptLine where
  | reset
  | nop (n : Nat)
  /-- `TRANSMIT "s"`, the string given as its character codes (R68). -/
  | transmitText (text : List Byte)
  /-- `TRANSMIT len=<n> data=<hex>`. A length beyond `LEN_W` bits is presented as all ones: log entry 17. -/
  | transmit (cmdLen : Nat) (cmdData : CmdData)
  | avail (pinAvail : Bool)
  | wait
  /-- `RESET_AT k`: NOPs until cycle `k` counted from the last TRANSMIT, and RESET in that cycle. DESIGN CHOICE, log
  entry 18: where cycle `k` is already past no cycle can be reset as the line asks, and running it has no answer. -/
  | resetAt (k : Nat)
deriving DecidableEq, Repr

/-- The command of a string: its length, saturated to `LEN_W` bits, and its first 25 characters, the other bytes
zero (R55, R67). -/
def commandOfText (W : LenWidth) (text : List Byte) : Command W where
  len := lenOperand W text.length
  data := BitVec.ofNat 200 (leNat (text.take Config.nSym))

variable {W : LenWidth}

/-- The ports of a NOP cycle. -/
def nopPorts (pinAvail : Bool) : Ports W := ⟨false, false, 0, 0, pinAvail⟩

/-- The ports of a RESET cycle. -/
def resetPorts (pinAvail : Bool) : Ports W := ⟨true, false, 0, 0, pinAvail⟩

/-- The ports of a TRANSMIT cycle. -/
def transmitPorts (pinAvail : Bool) (c : Command W) : Ports W := ⟨false, true, c.len, c.data, pinAvail⟩

/-- One cycle with given ports; `none` if the step stops. -/
def runCycle (p : (W : LenWidth) → Ports W) (s : State) : Option State :=
  match step { s with pte := s.pte.drive (p s.build.lenW) } with
  | .next t => some t
  | .fault _ => none
  | .refused _ => none

/-- `n` cycles with the same ports. -/
def runCycles (p : (W : LenWidth) → Ports W) : Nat → State → Option State
  | 0, s => some s
  | n + 1, s => (runCycle p s).bind (runCycles p n)

/-- NOP cycles until `busy == 0` in the cycle that follows one, at most `fuel` of them (log entry 18); the count is
given back. -/
def runWait (pinAvail : Bool) : Nat → State → Option (Nat × State)
  | 0, _ => none
  | fuel + 1, s =>
    match runCycle (fun _ => nopPorts pinAvail) s with
    | none => none
    | some t => if t.pte.busy then (runWait pinAvail fuel t).map (fun r => (r.1 + 1, r.2)) else some (1, t)

/-- Where a running program stands: the answer of the arbiter, the number of the next cycle counted from the last
TRANSMIT, and the machine. -/
structure ScriptState where
  pinAvail : Bool
  since : Nat
  machine : State
deriving DecidableEq, Repr

/-- One line (R67); `fuel` bounds a WAIT. Log entry 18. -/
def runLine (fuel : Nat) (l : ScriptLine) (r : ScriptState) : Option ScriptState :=
  match l with
  | .reset => (runCycle (fun _ => resetPorts r.pinAvail) r.machine).map
      (fun t => { r with since := r.since + 1, machine := t })
  | .nop n => (runCycles (fun _ => nopPorts r.pinAvail) n r.machine).map
      (fun t => { r with since := r.since + n, machine := t })
  | .transmitText text => (runCycle (fun W => transmitPorts r.pinAvail (commandOfText W text)) r.machine).map
      (fun t => { r with since := 1, machine := t })
  | .transmit cmdLen cmdData =>
    (runCycle (fun W => transmitPorts r.pinAvail ⟨lenOperand W cmdLen, cmdData⟩) r.machine).map
      (fun t => { r with since := 1, machine := t })
  | .avail b => some { r with pinAvail := b }
  | .wait => (runWait r.pinAvail fuel r.machine).map (fun t => { r with since := r.since + t.1, machine := t.2 })
  | .resetAt k =>
    if k < r.since then none
    else ((runCycles (fun _ => nopPorts r.pinAvail) (k - r.since) r.machine).bind
      (runCycle (fun _ => resetPorts r.pinAvail))).map (fun t => { r with since := k + 1, machine := t })

/-- The lines of a program, in order (R67). -/
def runScript (fuel : Nat) : List ScriptLine → ScriptState → Option ScriptState
  | [], r => some r
  | l :: ls, r => (runLine fuel l r).bind (runScript fuel ls)

end Sys2Proof.Machine
end

