-- ==== Sys2Proof/Safety.lean ====
section
/-! DEFINITION. The terms claims are made in: the invariant of the states reset reaches, and what the environment
does over a span of cycles. -/

namespace Sys2Proof.Machine

variable {B : Build}

/-- `pin_claim` and `pin_out` are what the STATE format says of the state (R28, R29, R60, R110). -/
abbrev Pte.PinsMatch (s : Pte B) : Prop := s.pinClaim = s.st.claims ∧ s.pinOut = s.st.isHigh

/-- The counters are within their ranges (R23 to R25). -/
abbrev Pte.InRange (s : Pte B) : Prop :=
  s.rep.toNat ≤ 5 ∧ s.idx.toNat ≤ 24 ∧ s.cnt.toNat ≤ Config.nAgcLow B.ticksPerUs - 1

/-- The counters where they have not begun to count (R23, R24, R31): all are zero from reset or from the accepted
TRANSMIT to VALIDATE, `rep` and `idx` to the end of AGC_HIGH, and `idx` through every AGC_LOW. -/
abbrev Pte.CountersFresh (s : Pte B) : Prop :=
  ((s.st = .idle ∨ s.st = .claim ∨ s.st = .validate) → s.rep = 0 ∧ s.idx = 0 ∧ s.cnt = 0) ∧
    (s.st = .agcHigh → s.rep = 0 ∧ s.idx = 0) ∧ (s.st = .agcLow → s.idx = 0)

/-- Only a valid command is pulsed (R104). -/
abbrev Pte.CommandValid (s : Pte B) : Prop := s.st.isPulse = true → firstInvalid s.cmdQ = none

/-- `perr` and `pinfo` fit the state (R26, R27, R34, R122): an error is held exactly in REJECTED and, for
InvalidSymbol, in the RELEASE before it. -/
abbrev Pte.ErrorMatches (s : Pte B) : Prop :=
  (s.st ≠ .rejected ∧ s.st ≠ .release → s.perr = .none) ∧ (s.st = .rejected → s.perr ≠ .none) ∧
    (s.st = .release → s.perr = .none ∨ s.perr = .invalidSymbol) ∧
    (s.perr = .none ∨ s.perr = .pinUnavailable → s.pinfo = 0)

/-- The hold count of the pulse in progress (R61): none outside the pulse states, or for a byte that is no symbol. -/
def Pte.pulseCount (s : Pte B) : Option Nat :=
  match s.st with
  | .agcHigh => some (holdCount B.ticksPerUs .agcH)
  | .agcLow => some (holdCount B.ticksPerUs .agcL)
  | .symHigh => (dec (s.symByte s.idx.toNat)).map (hiDur B.ticksPerUs)
  | .symLow => (dec (s.symByte s.idx.toNat)).map (loDur B.ticksPerUs)
  | .idle | .claim | .validate | .release | .done | .rejected | .illegal _ => none

/-- The hold counter is below the hold count of the pulse in progress (R25, R62). -/
abbrev Pte.CountInPulse (s : Pte B) : Prop := ∀ n, s.pulseCount = some n → s.cnt.toNat < n

/-- What holds of every state that reset reaches. -/
structure Pte.Inv (s : Pte B) : Prop where
  legal : s.st.isIllegal = false
  pins : s.PinsMatch
  range : s.InRange
  fresh : s.CountersFresh
  command : s.CommandValid
  error : s.ErrorMatches
  count : s.CountInPulse

/-- No RESET in this cycle and the `n - 1` cycles after it. -/
def Pte.NoResetFor (n : Nat) (s : Pte B) : Prop := ∀ j, j < n → (s.portsIn j).rst = false

/-- The state and the level last exactly `n` cycles, this one included: they are the same in each, and the state is
another in the cycle after them (R106). -/
def Pte.LastsFor (n : Nat) (s : Pte B) : Prop :=
  (∀ j, j < n → ∃ t, Sys2Proof.core.run j ⟨B, s⟩ = .next ⟨B, t⟩ ∧ t.st = s.st ∧ t.pinOut = s.pinOut) ∧
    ∃ t, Sys2Proof.core.run n ⟨B, s⟩ = .next ⟨B, t⟩ ∧ t.st ≠ s.st

/-- A TRANSMIT in this cycle presents the command `c` (R48). -/
abbrev Pte.Presents (c : Command B.lenW) (s : Pte B) : Prop := s.ports.rst = false ∧ s.ports.command = some c

/-- Every one of the command's 25 bytes is a symbol (R63, R64). -/
def ValidCommand (q : CmdData) : Prop := ∀ i, i < 25 → dec (cmdByte q i) ≠ none

end Sys2Proof.Machine
end

