-- ==== Sys2Proof/Certificates/Slice0/Obligations.lean ====
section
/-! DEFINITION. The statements. A next state written as a record update of `s` says the whole frame: every field that
the update does not name is as in `s`, the build parameters too (PTE has no memory, R41). A statement for every `B` is one
for every `TICKS_PER_US`, written `T` in the comments, and every `LEN_W`. -/

open Sys2Proof Sys2Proof.Machine

/-! ## Encoding -/

/-- R56: the four CTRL values, bit 1 `rst` and bit 0 `start`, and what each selects. -/
def Obligations.CtrlWordsSelectOperations : Prop :=
  (∀ (W : LenWidth) (len : LenWord W) (data : CmdData),
    decode (.ctrl 0b00#2 len data) = .nop ∧ decode (.ctrl 0b01#2 len data) = .transmit len.toNat data ∧
    decode (.ctrl 0b10#2 len data) = .reset false ∧ decode (.ctrl 0b11#2 len data) = .reset true) ∧
  (∀ (W : LenWidth) (p : Ports W), p.ctrlWord.getLsbD 1 = p.rst ∧ p.ctrlWord.getLsbD 0 = p.start) ∧
  (∀ (B : Build) (s : Pte B), s.fetch = decode (.ctrl s.ports.ctrlWord s.ports.cmdLen s.ports.cmdData)) ∧
  ∀ s : State, exec (.reset true) s = exec (.reset false) s

/-- R58: the three cases of a SYM byte, all eight bits compared. -/
def Obligations.SymbolByteDecoding : Prop :=
  ∀ (W : LenWidth) (c : Byte), (c = 0x30#8 → dec c = some .zero ∧ decode (W := W) (.sym c) = .sym0) ∧
    (c = 0x31#8 → dec c = some .one ∧ decode (W := W) (.sym c) = .sym1) ∧
    (c ≠ 0x30#8 → c ≠ 0x31#8 → dec c = none ∧ decode (W := W) (.sym c) = .symInvalid c)

/-- R60's code column: the code of each state, that 10 to 15 are the illegal ones, and that no two states share a
code. -/
def Obligations.StateCodesAreOneToOne : Prop :=
  (FsmState.code .idle = 0 ∧ FsmState.code .claim = 1 ∧ FsmState.code .validate = 2 ∧ FsmState.code .agcHigh = 3 ∧
    FsmState.code .agcLow = 4 ∧ FsmState.code .symHigh = 5 ∧ FsmState.code .symLow = 6 ∧
    FsmState.code .release = 7 ∧ FsmState.code .done = 8 ∧ FsmState.code .rejected = 9) ∧
  (∀ st : FsmState, st.isIllegal = true ↔ 10 ≤ st.code.toNat) ∧
  (∀ st, FsmState.ofCode (FsmState.code st) = st) ∧ ∀ c, FsmState.code (FsmState.ofCode c) = c

/-- R71, R72: 18 rows, 3 of CTRL, 3 of SYM and 12 of STATE; every word of every format selects the row of the
instruction it decodes to, and in CTRL and STATE no second row matches it. -/
def Obligations.EveryWordSelectsItsRow : Prop :=
  opcodeRows.length = 18 ∧ (opcodeRows.filter (fun r => r.format == .ctrl)).length = 3 ∧
    (opcodeRows.filter (fun r => r.format == .sym)).length = 3 ∧
    (opcodeRows.filter (fun r => r.format == .state)).length = 12 ∧
  (∀ (W : LenWidth) (c : Code W), (opcodeRows.find? (fun r => r.covers c)).map OpcodeRow.mnemonic = some (decode c).mnemonic) ∧
  ∀ (W : LenWidth) (c : Code W), c.format ≠ .sym → (opcodeRows.filter (fun r => r.covers c)).length = 1

/-- Words written out from the encoding tables decode to the instructions they stand for, the length operand at two
widths. -/
def Obligations.SampleWordsDecode : Prop :=
  decodeBytes ⟨16, by decide⟩ .ctrl (0x01#8 :: 0x19#8 :: 0x00#8 :: List.replicate 25 0x31#8) =
      .ok (.transmit 25 0x31313131313131313131313131313131313131313131313131) ∧
    decodeBytes ⟨8, by decide⟩ .ctrl (0x01#8 :: 0x02#8 :: 0x30#8 :: 0x31#8 :: List.replicate 23 0x00#8) =
      .ok (.transmit 2 0x3130) ∧
    ∀ W : LenWidth, decodeBytes W .sym [0x30#8] = .ok .sym0 ∧ decodeBytes W .sym [0xB0#8] = .ok (.symInvalid 0xB0) ∧
      decodeBytes W .state [0b0110#8] = .ok .symLow ∧ decodeBytes W .state [0b1011#8] = .ok (.illegalState1011 1) ∧
      decodeBytes W .state [0b1110#8] = .ok (.illegalState1215 2) ∧
      decodeBytes W .state [0x10#8] = .error .unusedBitSet ∧ decodeBytes W .sym [] = .error .wrongSize

/-- Decoding the byte image of any well-formed instruction gives it back. The image is the model's own convention
(log entry 12). -/
def Obligations.DecodeAfterEncode : Prop :=
  ∀ (W : LenWidth) (i : Instr), WellFormed W i = true →
    decodeBytes W (encode W i).format (encodeBytes W i) = .ok i

/-- Encoding what a word decodes to gives the word back, but for the CMD operand and the `start` bit that NOP and RESET
do not read; and decoding gives well-formed instructions only. -/
def Obligations.EncodeAfterDecode : Prop :=
  ∀ W : LenWidth, (∀ c : Code W, WellFormed W (decode c) = true) ∧
    (∀ b, encode W (decode (W := W) (.sym b)) = .sym b) ∧
    (∀ n, encode W (decode (W := W) (.state n)) = .state n) ∧
    (∀ (len : LenWord W) data, encode W (decode (.ctrl 1 len data)) = .ctrl 1 len data) ∧
    ∀ w (len : LenWord W) data, w ≠ 1 → encode W (decode (.ctrl w len data)) = .ctrl w 0 0

/-- R42, R13: byte `i` of the command is bits `8*i+7 : 8*i` of the bus. -/
def Obligations.CommandByteOrder : Prop :=
  ∀ (q : CmdData) (i j : Nat), i < 25 → j < 8 → (cmdByte q i).getLsbD j = q.getLsbD (8 * i + j)

/-- R55: the command of a string: byte `i` is character `i`, the rest are zero, and the length is saturated. A TRANSMIT
whose length `LEN_W` bits do not hold is one with the length all ones, which is the model's reading (log entry 17). -/
def Obligations.TextCommandLayout : Prop :=
  ∀ (W : LenWidth) (text : List Byte),
    (∀ i, i < 25 → cmdByte (commandOfText W text).data i = text.getD i 0) ∧
    (text.length < 2 ^ W.val → (commandOfText W text).len.toNat = text.length) ∧
    (2 ^ W.val ≤ text.length → (commandOfText W text).len = BitVec.allOnes W.val) ∧
    ∀ (len : Nat) (data : CmdData) (s : State), s.build.lenW = W → 2 ^ W.val ≤ len →
      exec (.transmit len data) s = exec (.transmit (2 ^ W.val - 1) data) s

/-! ## The step -/

/-- R83: one step per edge: RESET where `rst` is 1, else the state step, which `exec` gives for the operation on the
ports; then the next cycle's values come onto the ports. -/
def Obligations.StepRunsFetchedOperation : Prop :=
  ∀ (B : Build) (s t : Pte B), exec s.fetch ⟨B, s⟩ = .next ⟨B, t⟩ →
    step ⟨B, s⟩ = .next ⟨B, { t with driven := t.driven.tail, cycle := t.cycle + 1 }⟩

/-- R83: the step is total; and no step or instruction changes a build parameter. -/
def Obligations.StepNeverStops : Prop :=
  (∀ (B : Build) (s : Pte B), ∃ t, step ⟨B, s⟩ = .next ⟨B, t⟩) ∧
  ∀ (i : Instr) (B : Build) (s : Pte B), ∃ t, exec i ⟨B, s⟩ = .next ⟨B, t⟩

/-- With `rst` 0 the step is the row that the code in `st` selects; with `rst` 1 it is RESET (R54, R70, R83). -/
def Obligations.StepDispatchesOnStateCode : Prop :=
  ∀ (B : Build) (s : Pte B),
    (s.ports.rst = false → ∀ t, exec (decode (W := B.lenW) (.state s.st.code)) ⟨B, s⟩ = .next ⟨B, t⟩ →
      step ⟨B, s⟩ = .next ⟨B, { t with driven := t.driven.tail, cycle := t.cycle + 1 }⟩) ∧
    (s.ports.rst = true → ∀ t, exec (.reset s.ports.start) ⟨B, s⟩ = .next ⟨B, t⟩ →
      step ⟨B, s⟩ = .next ⟨B, { t with driven := t.driven.tail, cycle := t.cycle + 1 }⟩)

/-- A symbol row does what the state step that reads the byte does, the step's own counters apart (R54, R58; how a
symbol stands as an instruction is log entry 10). -/
def Obligations.SymbolRowsAgreeWithStateSteps : Prop :=
  ∀ (B : Build) (s t : Pte B),
    (s.st = .agcLow → s.cnt = 0 → exec (decode (W := B.lenW) (.sym (s.symByte 0))) ⟨B, s⟩ = .next ⟨B, t⟩ →
      exec .agcLow ⟨B, s⟩ = .next ⟨B, { t with idx := 0 }⟩) ∧
    (s.st = .symHigh → s.cnt = 0 → exec (decode (W := B.lenW) (.sym (s.symByte s.idx.toNat))) ⟨B, s⟩ = .next ⟨B, t⟩ →
      exec .symHigh ⟨B, s⟩ = .next ⟨B, t⟩) ∧
    (s.st = .symLow → s.cnt = 0 → s.idx.toNat < 24 →
      exec (decode (W := B.lenW) (.sym (s.symByte (s.idx.toNat + 1)))) ⟨B, s⟩ = .next ⟨B, t⟩ →
      exec .symLow ⟨B, s⟩ = .next ⟨B, { t with idx := s.idx + 1 }⟩) ∧
    (s.st = .validate → ∀ c, firstInvalid s.cmdQ = some c → exec (decode (W := B.lenW) (.sym c)) ⟨B, s⟩ = .next ⟨B, t⟩ →
      exec .validate ⟨B, s⟩ = .next ⟨B, t⟩)

/-- R37: every output is a register or a function of registers, and no input changes one in the same cycle. -/
def Obligations.OutputsReadRegistersOnly : Prop :=
  ∀ (B : Build) (s : Pte B), s.outputs = {
      pinOut := s.pinOut, pinClaim := s.pinClaim, pinId := 0b010111, busy := s.busy, doneFlag := s.doneFlag,
      err := s.err, errCode := s.errCode, errInfo := s.errInfo, stateO := s.st.code, repO := s.rep,
      idxO := s.idx } ∧ ∀ p : Ports B.lenW, (s.drive p).outputs = s.outputs

/-- R33: the status flags. -/
def Obligations.StatusFlagsFollowState : Prop :=
  (∀ (B : Build) (s : Pte B), (s.busy = true ↔ s.st = .claim ∨ s.st = .validate ∨ s.st = .agcHigh ∨ s.st = .agcLow ∨
      s.st = .symHigh ∨ s.st = .symLow ∨ s.st = .release) ∧
    (s.doneFlag = true ↔ s.st = .done) ∧ (s.err = true ↔ s.st = .rejected) ∧
    (s.st.isIllegal = true → s.busy = false ∧ s.doneFlag = false ∧ s.err = false) ∧
    ¬(s.busy = true ∧ s.doneFlag = true) ∧ ¬(s.busy = true ∧ s.err = true) ∧
    ¬(s.doneFlag = true ∧ s.err = true) ∧
    ∀ p : Ports B.lenW, (s.drive p).busy = s.busy ∧ (s.drive p).doneFlag = s.doneFlag ∧ (s.drive p).err = s.err) ∧
  ∀ B, (Pte.reset B).busy = false ∧ (Pte.reset B).doneFlag = false ∧ (Pte.reset B).err = false

/-- R34 and the codes of R122: the error outputs, and that in REJECTED the code is never 0, given the invariant of the
states that reset reaches. -/
def Obligations.ErrorOutputsShownInRejected : Prop :=
  (ErrorCode.code .none = 0 ∧ ErrorCode.code .invalidCommandLength = 1 ∧ ErrorCode.code .invalidSymbol = 2 ∧
    ErrorCode.code .pinUnavailable = 3) ∧
  (∀ (B : Build) (s : Pte B), (s.st = .rejected → s.errCode = s.perr.code ∧ s.errInfo = s.pinfo) ∧
    (s.st = .rejected → (s.perr = .invalidCommandLength → s.errCode = 1) ∧ (s.perr = .invalidSymbol → s.errCode = 2) ∧
      (s.perr = .pinUnavailable → s.errCode = 3)) ∧
    (s.st ≠ .rejected → s.errCode = 0 ∧ s.errInfo = 0) ∧
    (s.Inv → s.st = .rejected → s.errCode ≠ 0) ∧
    ∀ p : Ports B.lenW, (s.drive p).errCode = s.errCode ∧ (s.drive p).errInfo = s.errInfo) ∧
  ∀ B, (Pte.reset B).errCode = 0 ∧ (Pte.reset B).errInfo = 0

/-! ## Host operations -/

/-- R73, R77: the accepted TRANSMIT, from each of the three states of rest alike, for every length that `LEN_W` bits
hold; `TextCommandLayout` has the others. -/
def Obligations.TransmitAcceptedLatchesCommand : Prop :=
  ∀ (B : Build) (s : Pte B) (len : Nat) (data : CmdData), s.st = .idle ∨ s.st = .done ∨ s.st = .rejected →
    len < 2 ^ B.lenW.val →
    (len = 25 → exec (.transmit len data) ⟨B, s⟩ = .next ⟨B, { s with
      cmdQ := data, rep := 0, idx := 0, cnt := 0, perr := .none, pinfo := 0, st := .claim }⟩) ∧
    (len ≠ 25 → exec (.transmit len data) ⟨B, s⟩ = .next ⟨B, { s with
      cmdQ := data, rep := 0, idx := 0, cnt := 0, perr := .invalidCommandLength, pinfo := BitVec.ofNat _ len,
      st := .rejected }⟩) ∧
    ∀ t : Pte B, exec (.transmit len data) ⟨B, s⟩ = .next ⟨B, t⟩ → t.doneFlag = false ∧
      (len = 25 → t.busy = true ∧ t.err = false) ∧
      (len ≠ 25 → t.err = true ∧ t.errCode = 1 ∧ t.errInfo.toNat = len)

/-- R57, R74: in every other state a TRANSMIT is the state step that a NOP takes, whatever its operand, and the
latched command stays. -/
def Obligations.TransmitIgnoredWhileBusy : Prop :=
  ∀ (B : Build) (s : Pte B) (len : Nat) (data : CmdData), s.st.acceptsStart = false →
    exec (.transmit len data) ⟨B, s⟩ = exec .nop ⟨B, s⟩ ∧ ∃ t, exec .nop ⟨B, s⟩ = .next ⟨B, t⟩ ∧ t.cmdQ = s.cmdQ

/-- R75, R139: a NOP changes nothing in a state of rest, and is the step of the row that `st` selects in any other. -/
def Obligations.NopTakesStateStep : Prop :=
  ∀ (B : Build) (s : Pte B), (s.st = .idle ∨ s.st = .done ∨ s.st = .rejected → exec .nop ⟨B, s⟩ = .next ⟨B, s⟩) ∧
    (s.st.acceptsStart = false → exec .nop ⟨B, s⟩ = exec (decode (W := B.lenW) (.state s.st.code)) ⟨B, s⟩)

/-- R142: RESET from any state, whatever `start` is: every register but `cmd_q`, the flags after it, and that a reset in
IDLE changes nothing (in the states that reset reaches). -/
def Obligations.ResetRestoresRegisters : Prop :=
  ∀ (B : Build) (s : Pte B) (start : Bool),
    exec (.reset start) ⟨B, s⟩ = .next ⟨B, { s with
      st := .idle, pinOut := false, pinClaim := false, rep := 0, idx := 0, cnt := 0, perr := .none, pinfo := 0 }⟩ ∧
    (∀ t, exec (.reset start) ⟨B, s⟩ = .next ⟨B, t⟩ → t.busy = false ∧ t.doneFlag = false ∧ t.err = false ∧
      t.errCode = 0 ∧ t.errInfo = 0) ∧
    (s.Inv → s.st = .idle → exec (.reset start) ⟨B, s⟩ = .next ⟨B, s⟩)

/-- R144: in a cycle with `rst` 1 no other input is read. -/
def Obligations.ResetReadsNoOtherInput : Prop :=
  ∀ (B : Build) (s : Pte B) (p p' : Ports B.lenW), p.rst = true → p'.rst = true →
    step ⟨B, s.drive p⟩ = step ⟨B, s.drive p'⟩ ∧
    ∃ t, step ⟨B, s.drive p⟩ = .next ⟨B, t⟩ ∧ t.st = .idle ∧ t.pinOut = false ∧ t.pinClaim = false

/-- R78: a `start` held with a wrong length is rejected again in every cycle, with the same result. -/
def Obligations.HeldStartIsRejectedEachCycle : Prop :=
  ∀ (B : Build) (s : Pte B) (c : Command B.lenW) (m : Nat), s.st.acceptsStart = true → c.len ≠ 25 → 0 < m →
    (∀ j, j < m → (s.portsIn j).rst = false ∧ (s.portsIn j).command = some c) →
    Sys2Proof.core.run m ⟨B, s⟩ = .next ⟨B, { s with
      cmdQ := c.data, rep := 0, idx := 0, cnt := 0, perr := .invalidCommandLength, pinfo := c.len, st := .rejected,
      driven := s.driven.drop m, cycle := s.cycle + m }⟩

/-! ## The rows of STATE -/

/-- What the three states of rest do with the ports of their cycle (R84). -/
def Sys2Proof.Machine.restResult {B : Build} (s : Pte B) : Pte B :=
  if s.ports.start then
    if s.ports.cmdLen = 25 then
      { s with cmdQ := s.ports.cmdData, rep := 0, idx := 0, cnt := 0, perr := .none, pinfo := 0, st := .claim }
    else
      { s with cmdQ := s.ports.cmdData, rep := 0, idx := 0, cnt := 0, perr := .invalidCommandLength,
               pinfo := s.ports.cmdLen, st := .rejected }
  else s

/-- R84: IDLE; and that it is entered by reset and by recovery only. -/
def Obligations.IdleRowStep : Prop :=
  ∀ (B : Build) (s : Pte B), exec .idle ⟨B, s⟩ = .next ⟨B, restResult s⟩ ∧
    (s.st = .idle → s.busy = false ∧ s.doneFlag = false ∧ s.err = false) ∧
    ∀ t, step ⟨B, s⟩ = .next ⟨B, t⟩ → t.st = .idle → s.st ≠ .idle → s.ports.rst = true ∨ s.st.isIllegal = true

/-- R85: DONE. -/
def Obligations.DoneRowStep : Prop :=
  ∀ (B : Build) (s : Pte B), exec .done ⟨B, s⟩ = .next ⟨B, restResult s⟩ ∧
    (s.st = .done → s.doneFlag = true ∧ s.errCode = 0) ∧
    (s.Inv → s.st = .done → s.pinClaim = false ∧ s.pinOut = false)

/-- R86: REJECTED. -/
def Obligations.RejectedRowStep : Prop :=
  ∀ (B : Build) (s : Pte B), exec .rejected ⟨B, s⟩ = .next ⟨B, restResult s⟩ ∧
    (s.st = .rejected → s.err = true ∧ s.errCode = s.perr.code ∧ s.errInfo = s.pinfo) ∧
    (s.Inv → s.st = .rejected → s.pinClaim = false ∧ s.pinOut = false)

/-- R132: REJECTED keeps its result until the next TRANSMIT, which clears the error, or RESET. -/
def Obligations.RejectedHeldUntilTransmitOrReset : Prop :=
  ∀ (B : Build) (s : Pte B), s.st = .rejected →
    (s.ports.rst = false → s.ports.start = false →
      step ⟨B, s⟩ = .next ⟨B, { s with driven := s.driven.tail, cycle := s.cycle + 1 }⟩) ∧
    (∀ t, step ⟨B, s⟩ = .next ⟨B, t⟩ → t.st ≠ .rejected → s.ports.rst = true ∨ s.ports.start = true) ∧
    (∀ t, step ⟨B, s⟩ = .next ⟨B, t⟩ → s.ports.rst = false → s.ports.start = true → s.ports.cmdLen = 25 →
      t.perr = .none ∧ t.pinfo = 0 ∧ t.err = false) ∧
    (∀ t, step ⟨B, s⟩ = .next ⟨B, t⟩ → s.ports.rst = true → t.perr = .none ∧ t.err = false)

/-- R87, R125: CLAIM. The branch on `pin_claim` is that of `raise` (R16, log entry 9); in the
states that reset reaches it is 0. -/
def Obligations.ClaimRowStep : Prop :=
  ∀ (B : Build) (s : Pte B),
    (s.ports.pinAvail = true →
      exec .claim ⟨B, s⟩ = .next ⟨B, { s with pinClaim := true, pinOut := false, st := .validate }⟩) ∧
    (s.ports.pinAvail = false → s.pinClaim = false →
      exec .claim ⟨B, s⟩ = .next ⟨B, { s with perr := .pinUnavailable, pinfo := 0, st := .rejected }⟩) ∧
    (s.ports.pinAvail = false → s.pinClaim = true →
      exec .claim ⟨B, s⟩ = .next ⟨B, { s with perr := .pinUnavailable, pinfo := 0, pinOut := false, st := .release }⟩) ∧
    (s.st = .claim → s.busy = true ∧ ∀ t, step ⟨B, s⟩ = .next ⟨B, t⟩ → t.st ≠ .claim) ∧
    (s.Inv → s.st = .claim → s.pinClaim = false)

/-- R88, R124, R129: VALIDATE, the lowest-indexed invalid byte being `cmd_q[k]`. The branch of `raise` is log
entry 9. -/
def Obligations.ValidateRowStep : Prop :=
  ∀ (B : Build) (s : Pte B),
    (∀ k, k < 25 → dec (cmdByte s.cmdQ k) = none → (∀ i, i < k → dec (cmdByte s.cmdQ i) ≠ none) →
      (s.pinClaim = true → exec .validate ⟨B, s⟩ = .next ⟨B, { s with
        perr := .invalidSymbol, pinfo := (cmdByte s.cmdQ k).setWidth B.lenW.val, pinOut := false, st := .release }⟩) ∧
      (s.pinClaim = false → exec .validate ⟨B, s⟩ = .next ⟨B, { s with
        perr := .invalidSymbol, pinfo := (cmdByte s.cmdQ k).setWidth B.lenW.val, st := .rejected }⟩)) ∧
    (ValidCommand s.cmdQ → exec .validate ⟨B, s⟩ = .next ⟨B, { s with
      pinOut := true, cnt := BitVec.ofNat _ (400 * B.ticksPerUs.val - 1), st := .agcHigh }⟩) ∧
    (s.st = .validate → s.busy = true) ∧ (s.Inv → s.st = .validate → s.pinClaim = true)

/-- R89: AGC_HIGH; that it is entered from VALIDATE only, with `cnt` at `N_AGCH - 1`; and that it lasts `cnt + 1`
cycles. -/
def Obligations.AgcHighRowStep : Prop :=
  ∀ (B : Build) (s : Pte B),
    (s.cnt ≠ 0 → exec .agcHigh ⟨B, s⟩ = .next ⟨B, { s with cnt := s.cnt - 1 }⟩) ∧
    (s.cnt = 0 → exec .agcHigh ⟨B, s⟩ = .next ⟨B, { s with
      pinOut := false, cnt := BitVec.ofNat _ (2210 * B.ticksPerUs.val - 1), rep := 0, st := .agcLow }⟩) ∧
    (s.st = .agcHigh → s.busy = true) ∧
    (∀ t, step ⟨B, s⟩ = .next ⟨B, t⟩ → t.st = .agcHigh → s.st ≠ .agcHigh →
      s.st = .validate ∧ t.cnt.toNat = 400 * B.ticksPerUs.val - 1 ∧ t.pinOut = true) ∧
    (s.st = .agcHigh → s.NoResetFor (s.cnt.toNat + 1) → s.LastsFor (s.cnt.toNat + 1))

/-- R90: AGC_LOW, the branch of `raise` on `pin_claim` included (log entry 9); that it is entered from
AGC_HIGH and SYM_LOW only, with `cnt` at `N_AGCL - 1`; and that it lasts `cnt + 1` cycles. -/
def Obligations.AgcLowRowStep : Prop :=
  ∀ (B : Build) (s : Pte B),
    (s.cnt ≠ 0 → exec .agcLow ⟨B, s⟩ = .next ⟨B, { s with cnt := s.cnt - 1 }⟩) ∧
    (s.cnt = 0 → cmdByte s.cmdQ 0 = 0x31 → exec .agcLow ⟨B, s⟩ = .next ⟨B, { s with
      idx := 0, pinOut := true, cnt := BitVec.ofNat _ (1190 * B.ticksPerUs.val - 1), st := .symHigh }⟩) ∧
    (s.cnt = 0 → cmdByte s.cmdQ 0 = 0x30 → exec .agcLow ⟨B, s⟩ = .next ⟨B, { s with
      idx := 0, pinOut := true, cnt := BitVec.ofNat _ (335 * B.ticksPerUs.val - 1), st := .symHigh }⟩) ∧
    (s.cnt = 0 → dec (cmdByte s.cmdQ 0) = none → s.pinClaim = true → exec .agcLow ⟨B, s⟩ = .next ⟨B, { s with
      idx := 0, perr := .invalidSymbol, pinfo := (cmdByte s.cmdQ 0).setWidth B.lenW.val, pinOut := false,
      st := .release }⟩) ∧
    (s.cnt = 0 → dec (cmdByte s.cmdQ 0) = none → s.pinClaim = false → exec .agcLow ⟨B, s⟩ = .next ⟨B, { s with
      idx := 0, perr := .invalidSymbol, pinfo := (cmdByte s.cmdQ 0).setWidth B.lenW.val, st := .rejected }⟩) ∧
    (s.st = .agcLow → s.busy = true) ∧
    (∀ t, step ⟨B, s⟩ = .next ⟨B, t⟩ → t.st = .agcLow → s.st ≠ .agcLow →
      (s.st = .agcHigh ∨ s.st = .symLow) ∧ t.cnt.toNat = 2210 * B.ticksPerUs.val - 1 ∧ t.pinOut = false) ∧
    (s.st = .agcLow → s.NoResetFor (s.cnt.toNat + 1) → s.LastsFor (s.cnt.toNat + 1))

/-- R91: SYM_HIGH. Where `cmd_q[idx]` is no symbol, or `idx` names no byte, the spec states no hold count: the step
completes with some value of `CNT_W` bits (log entries 6 and 7). -/
def Obligations.SymHighRowStep : Prop :=
  ∀ (B : Build) (s : Pte B),
    (s.cnt ≠ 0 → exec .symHigh ⟨B, s⟩ = .next ⟨B, { s with cnt := s.cnt - 1 }⟩) ∧
    (s.cnt = 0 → s.idx.toNat < 25 → cmdByte s.cmdQ s.idx.toNat = 0x31 → exec .symHigh ⟨B, s⟩ = .next ⟨B, { s with
      pinOut := false, cnt := BitVec.ofNat _ (335 * B.ticksPerUs.val - 1), st := .symLow }⟩) ∧
    (s.cnt = 0 → s.idx.toNat < 25 → cmdByte s.cmdQ s.idx.toNat = 0x30 → exec .symHigh ⟨B, s⟩ = .next ⟨B, { s with
      pinOut := false, cnt := BitVec.ofNat _ (1190 * B.ticksPerUs.val - 1), st := .symLow }⟩) ∧
    (s.cnt = 0 → ∃ n,
      exec .symHigh ⟨B, s⟩ = .next ⟨B, { s with pinOut := false, cnt := n, st := .symLow }⟩) ∧
    (s.st = .symHigh → s.busy = true) ∧
    (∀ t, s.Inv → step ⟨B, s⟩ = .next ⟨B, t⟩ → t.st = .symHigh → s.st ≠ .symHigh → t.pinOut = true ∧
      ∃ b, dec (cmdByte t.cmdQ t.idx.toNat) = some b ∧ t.cnt.toNat + 1 = hiDur B.ticksPerUs b) ∧
    (s.st = .symHigh → s.NoResetFor (s.cnt.toNat + 1) → s.LastsFor (s.cnt.toNat + 1))

/-- R92: SYM_LOW. Above index 24 no byte is named; the step then completes in SYM_HIGH, or in the entry of
InvalidSymbol, with values the spec does not state (log entries 7, 8 and 9); `rep + 1` is stated for `rep` below 7. -/
def Obligations.SymLowRowStep : Prop :=
  ∀ (B : Build) (s : Pte B),
    (s.cnt ≠ 0 → exec .symLow ⟨B, s⟩ = .next ⟨B, { s with cnt := s.cnt - 1 }⟩) ∧
    (s.cnt = 0 → s.idx.toNat < 24 → cmdByte s.cmdQ (s.idx.toNat + 1) = 0x31 → exec .symLow ⟨B, s⟩ = .next ⟨B, { s with
      idx := s.idx + 1, pinOut := true, cnt := BitVec.ofNat _ (1190 * B.ticksPerUs.val - 1), st := .symHigh }⟩) ∧
    (s.cnt = 0 → s.idx.toNat < 24 → cmdByte s.cmdQ (s.idx.toNat + 1) = 0x30 → exec .symLow ⟨B, s⟩ = .next ⟨B, { s with
      idx := s.idx + 1, pinOut := true, cnt := BitVec.ofNat _ (335 * B.ticksPerUs.val - 1), st := .symHigh }⟩) ∧
    (s.cnt = 0 → s.idx.toNat < 24 → dec (cmdByte s.cmdQ (s.idx.toNat + 1)) = none → s.pinClaim = true →
      exec .symLow ⟨B, s⟩ = .next ⟨B, { s with
        idx := s.idx + 1, perr := .invalidSymbol,
        pinfo := (cmdByte s.cmdQ (s.idx.toNat + 1)).setWidth B.lenW.val, pinOut := false, st := .release }⟩) ∧
    (s.cnt = 0 → s.idx.toNat < 24 → dec (cmdByte s.cmdQ (s.idx.toNat + 1)) = none → s.pinClaim = false →
      exec .symLow ⟨B, s⟩ = .next ⟨B, { s with
        idx := s.idx + 1, perr := .invalidSymbol,
        pinfo := (cmdByte s.cmdQ (s.idx.toNat + 1)).setWidth B.lenW.val, st := .rejected }⟩) ∧
    (s.cnt = 0 → 24 < s.idx.toNat → ∃ t, exec .symLow ⟨B, s⟩ = .next ⟨B, t⟩ ∧
      (t.st = .symHigh ∨ t.perr = .invalidSymbol) ∧ t.rep = s.rep ∧ t.cmdQ = s.cmdQ ∧ t.pinClaim = s.pinClaim) ∧
    (s.cnt = 0 → s.idx = 24 → s.rep ≠ 5 → s.rep ≠ 7 → exec .symLow ⟨B, s⟩ = .next ⟨B, { s with
      rep := s.rep + 1, idx := 0, pinOut := false, cnt := BitVec.ofNat _ (2210 * B.ticksPerUs.val - 1), st := .agcLow }⟩) ∧
    (s.cnt = 0 → s.idx = 24 → s.rep = 7 → ∃ r, exec .symLow ⟨B, s⟩ = .next ⟨B, { s with
      rep := r, idx := 0, pinOut := false, cnt := BitVec.ofNat _ (2210 * B.ticksPerUs.val - 1), st := .agcLow }⟩) ∧
    (s.cnt = 0 → s.idx = 24 → s.rep = 5 → exec .symLow ⟨B, s⟩ = .next ⟨B, { s with pinOut := false, st := .release }⟩) ∧
    (s.st = .symLow → s.busy = true) ∧
    (∀ t, s.Inv → step ⟨B, s⟩ = .next ⟨B, t⟩ → t.st = .symLow → s.st ≠ .symLow → t.pinOut = false ∧
      ∃ b, dec (cmdByte t.cmdQ t.idx.toNat) = some b ∧ t.cnt.toNat + 1 = loDur B.ticksPerUs b) ∧
    (s.st = .symLow → s.NoResetFor (s.cnt.toNat + 1) → s.LastsFor (s.cnt.toNat + 1))

/-- R93: RELEASE. -/
def Obligations.ReleaseRowStep : Prop :=
  ∀ (B : Build) (s : Pte B),
    (s.perr = .none → exec .release ⟨B, s⟩ = .next ⟨B, { s with pinOut := false, pinClaim := false, st := .done }⟩) ∧
    (s.perr ≠ .none → exec .release ⟨B, s⟩ = .next ⟨B, { s with pinOut := false, pinClaim := false, st := .rejected }⟩) ∧
    (s.st = .release → s.busy = true ∧ ∀ t, step ⟨B, s⟩ = .next ⟨B, t⟩ → t.st ≠ .release) ∧
    (∀ t, step ⟨B, s⟩ = .next ⟨B, t⟩ → t.st = .release → s.Inv → s.pinClaim = true ∧ t.pinClaim = true ∧ t.pinOut = false)

/-- R94: the codes 10 to 15, both rows and the step, with or without a start. -/
def Obligations.IllegalCodesRecover : Prop :=
  ∀ (B : Build) (s : Pte B),
    (∀ low, exec (.illegalState1011 low) ⟨B, s⟩ = .next ⟨B, { s with
      pinOut := false, pinClaim := false, perr := .none, pinfo := 0, st := .idle }⟩) ∧
    (∀ low, exec (.illegalState1215 low) ⟨B, s⟩ = .next ⟨B, { s with
      pinOut := false, pinClaim := false, perr := .none, pinfo := 0, st := .idle }⟩) ∧
    (s.st.isIllegal = true → s.ports.rst = false → step ⟨B, s⟩ = .next ⟨B, { s with
      pinOut := false, pinClaim := false, perr := .none, pinfo := 0, st := .idle,
      driven := s.driven.tail, cycle := s.cycle + 1 }⟩) ∧
    (s.st.isIllegal = true → s.busy = false ∧ s.doneFlag = false ∧ s.err = false)

/-! ## The rows of SYM -/

/-- R95: SYM0. It begins a HIGH phase of `N_SHORT` or a LOW phase of `N_LONG` where a step reads the byte for one, and
changes nothing else (log entry 10). -/
def Obligations.Sym0RowEffect : Prop :=
  ∀ (B : Build) (s : Pte B), dec 0x30 = some .zero ∧ hiDur B.ticksPerUs .zero = 335 * B.ticksPerUs.val ∧
    loDur B.ticksPerUs .zero = 1190 * B.ticksPerUs.val ∧
    (s.symbolUse = .highPhase → exec .sym0 ⟨B, s⟩ = .next ⟨B, { s with
      pinOut := true, cnt := BitVec.ofNat _ (335 * B.ticksPerUs.val - 1), st := .symHigh }⟩) ∧
    (s.symbolUse = .lowPhase → exec .sym0 ⟨B, s⟩ = .next ⟨B, { s with
      pinOut := false, cnt := BitVec.ofNat _ (1190 * B.ticksPerUs.val - 1), st := .symLow }⟩) ∧
    (s.symbolUse = .check ∨ s.symbolUse = .unread → exec .sym0 ⟨B, s⟩ = .next ⟨B, s⟩)

/-- R96: SYM1, the phases exchanged (log entry 10). -/
def Obligations.Sym1RowEffect : Prop :=
  ∀ (B : Build) (s : Pte B), dec 0x31 = some .one ∧ hiDur B.ticksPerUs .one = 1190 * B.ticksPerUs.val ∧
    loDur B.ticksPerUs .one = 335 * B.ticksPerUs.val ∧
    (s.symbolUse = .highPhase → exec .sym1 ⟨B, s⟩ = .next ⟨B, { s with
      pinOut := true, cnt := BitVec.ofNat _ (1190 * B.ticksPerUs.val - 1), st := .symHigh }⟩) ∧
    (s.symbolUse = .lowPhase → exec .sym1 ⟨B, s⟩ = .next ⟨B, { s with
      pinOut := false, cnt := BitVec.ofNat _ (335 * B.ticksPerUs.val - 1), st := .symLow }⟩) ∧
    (s.symbolUse = .check ∨ s.symbolUse = .unread → exec .sym1 ⟨B, s⟩ = .next ⟨B, s⟩)

/-- R97: SYM_INVALID raises InvalidSymbol with the byte in `pinfo` where a step checks it, through RELEASE when the pin
is claimed; at the exit of SYM_HIGH, which does not check, the hold is free (log entries 6, 9 and 10). -/
def Obligations.SymInvalidRowEffect : Prop :=
  ∀ (B : Build) (s : Pte B) (c : Byte), (c ≠ 0x30 → c ≠ 0x31 → dec c = none) ∧
    (s.symbolUse = .check ∨ s.symbolUse = .highPhase → s.pinClaim = true →
      exec (.symInvalid c) ⟨B, s⟩ = .next ⟨B, { s with
        perr := .invalidSymbol, pinfo := c.setWidth B.lenW.val, pinOut := false, st := .release }⟩) ∧
    (s.symbolUse = .check ∨ s.symbolUse = .highPhase → s.pinClaim = false →
      exec (.symInvalid c) ⟨B, s⟩ = .next ⟨B, { s with perr := .invalidSymbol, pinfo := c.setWidth B.lenW.val, st := .rejected }⟩) ∧
    (s.symbolUse = .lowPhase → ∃ n,
      exec (.symInvalid c) ⟨B, s⟩ = .next ⟨B, { s with pinOut := false, cnt := n, st := .symLow }⟩) ∧
    (s.symbolUse = .unread → exec (.symInvalid c) ⟨B, s⟩ = .next ⟨B, s⟩)

/-! ## Rules of the whole machine -/

/-- The invariant of the states that reset reaches is kept by every step, whatever the inputs. -/
def Obligations.StepKeepsInvariant : Prop :=
  ∀ (B : Build) (s t : Pte B), s.Inv → step ⟨B, s⟩ = .next ⟨B, t⟩ → t.Inv

/-- It holds after reset, for all build parameters. -/
def Obligations.InvariantAtReset : Prop :=
  State.reset.pte.Inv ∧ ∀ B, (Pte.reset B).Inv

/-- R20's reset values; that of `cmd_q` is the model's (log entry 5) and is not stated. -/
def Obligations.ResetValues : Prop :=
  ∀ B, (Pte.reset B).st = .idle ∧ (Pte.reset B).rep = 0 ∧ (Pte.reset B).idx = 0 ∧
    (Pte.reset B).cnt = 0 ∧ (Pte.reset B).perr = .none ∧ (Pte.reset B).pinfo = 0 ∧
    (Pte.reset B).pinOut = false ∧ (Pte.reset B).pinClaim = false ∧ (Pte.reset B).busy = false ∧
    (Pte.reset B).err = false ∧ (Pte.reset B).errCode = 0 ∧ (Pte.reset B).errInfo = 0

/-- R110, R29, R30: in every state reached from reset under any inputs, `pin_claim` is 1 exactly in the six states, and
`pin_out` is 0 wherever `pin_claim` is; with R28, `pin_out` is 1 only in AGC_HIGH and SYM_HIGH. -/
def Obligations.ReachablePinsFollowState : Prop :=
  ∀ (B : Build) (inputs : List (Ports B.lenW)) (n : Nat) (t : Pte B),
    Sys2Proof.core.run n ⟨B, { Pte.reset B with driven := inputs }⟩ = .next ⟨B, t⟩ →
    (t.pinClaim = true ↔ t.st = .validate ∨ t.st = .agcHigh ∨ t.st = .agcLow ∨ t.st = .symHigh ∨
      t.st = .symLow ∨ t.st = .release) ∧
    (t.pinClaim = false → t.pinOut = false) ∧ (t.pinOut = true ↔ t.st = .agcHigh ∨ t.st = .symHigh)

/-- R21, R23 to R25: what the registers never reach from reset, under any inputs. -/
def Obligations.ReachableCountersInRange : Prop :=
  ∀ (B : Build) (inputs : List (Ports B.lenW)) (n : Nat) (t : Pte B),
    Sys2Proof.core.run n ⟨B, { Pte.reset B with driven := inputs }⟩ = .next ⟨B, t⟩ →
    t.st.isIllegal = false ∧ t.rep.toNat ≤ 5 ∧ t.idx.toNat ≤ 24 ∧ t.cnt.toNat ≤ 2210 * B.ticksPerUs.val - 1

/-- R12: `CNT_W` holds `N_AGCL - 1`, the largest value loaded, no smaller width does, and it is 12 at
`TICKS_PER_US` 1. -/
def Obligations.HoldCounterWidth : Prop :=
  (∀ T : Ticks, 2210 * T.val - 1 < 2 ^ Config.cntW T ∧
    (∀ k, holdCount T k - 1 ≤ 2210 * T.val - 1) ∧ ∀ w, 2210 * T.val - 1 < 2 ^ w → Config.cntW T ≤ w) ∧
  Config.cntW ⟨1, by decide⟩ = 12

/-- R109: no counter wraps: each is kept, counted by one, cleared, or (for `cnt`) loaded with a hold count less one,
which fits `CNT_W` bits. -/
def Obligations.CountersNeverWrap : Prop :=
  ∀ (B : Build) (s t : Pte B), s.Inv → step ⟨B, s⟩ = .next ⟨B, t⟩ →
    (t.cnt = s.cnt ∨ t.cnt.toNat + 1 = s.cnt.toNat ∨ t.cnt = 0 ∨ ∃ k, t.cnt.toNat + 1 = holdCount B.ticksPerUs k) ∧
    (∀ k, holdCount B.ticksPerUs k - 1 < 2 ^ Config.cntW B.ticksPerUs) ∧
    (t.idx = s.idx ∨ t.idx = 0 ∨ s.idx ≠ 24 ∧ t.idx.toNat = s.idx.toNat + 1) ∧
    (t.rep = s.rep ∨ t.rep = 0 ∨ s.rep ≠ 5 ∧ t.rep.toNat = s.rep.toNat + 1)

/-- R22, R51: `cmd_q` changes only by an accepted TRANSMIT, to the command presented in that cycle; so it is immutable
while busy. -/
def Obligations.CommandImmutableWhileBusy : Prop :=
  ∀ (B : Build) (s t : Pte B), step ⟨B, s⟩ = .next ⟨B, t⟩ →
    (s.busy = true → t.cmdQ = s.cmdQ) ∧
    (t.cmdQ ≠ s.cmdQ → s.st.acceptsStart = true ∧ ∃ c, s.Presents c ∧ t.cmdQ = c.data)

/-- R36, R48, R121, R148: without a reset, two sets of inputs that agree on `pin_avail` in CLAIM, and on the presented
command in IDLE, DONE and REJECTED, give the same step. -/
def Obligations.InputsReadOnlyWhereStated : Prop :=
  ∀ (B : Build) (s : Pte B) (p p' : Ports B.lenW), p.rst = false → p'.rst = false →
    (s.st = .claim → p.pinAvail = p'.pinAvail) → (s.st.acceptsStart = true → p.command = p'.command) →
    step ⟨B, s.drive p⟩ = step ⟨B, s.drive p'⟩

/-- R108: the next-state table. Only the lines that go through `raise` have a premise, the invariant's clause on the
pins, which decides where `raise` goes (R16). -/
def Obligations.NextStateTable : Prop :=
  ∀ (B : Build) (s t : Pte B), step ⟨B, s⟩ = .next ⟨B, t⟩ →
    (s.ports.rst = true → t.st = .idle) ∧
    (s.ports.rst = false →
      (s.st.acceptsStart = true → s.ports.start = false → t.st = s.st) ∧
      (s.st.acceptsStart = true → s.ports.start = true → s.ports.cmdLen ≠ 25 → t.st = .rejected) ∧
      (s.st.acceptsStart = true → s.ports.start = true → s.ports.cmdLen = 25 → t.st = .claim) ∧
      (s.st = .claim → s.ports.pinAvail = true → t.st = .validate) ∧
      (s.st = .claim → s.ports.pinAvail = false → s.PinsMatch → t.st = .rejected) ∧
      (s.st = .validate → ¬ValidCommand s.cmdQ → s.PinsMatch → t.st = .release) ∧
      (s.st = .validate → ValidCommand s.cmdQ → t.st = .agcHigh) ∧
      (s.st.isPulse = true → s.cnt ≠ 0 → t.st = s.st) ∧
      (s.st = .agcHigh → s.cnt = 0 → t.st = .agcLow) ∧
      (s.st = .agcLow → s.cnt = 0 → dec (cmdByte s.cmdQ 0) ≠ none → t.st = .symHigh) ∧
      (s.st = .agcLow → s.cnt = 0 → dec (cmdByte s.cmdQ 0) = none → s.PinsMatch → t.st = .release) ∧
      (s.st = .symHigh → s.cnt = 0 → t.st = .symLow) ∧
      (s.st = .symLow → s.cnt = 0 → s.idx.toNat < 24 → dec (cmdByte s.cmdQ (s.idx.toNat + 1)) ≠ none →
        t.st = .symHigh) ∧
      (s.st = .symLow → s.cnt = 0 → s.idx.toNat < 24 → dec (cmdByte s.cmdQ (s.idx.toNat + 1)) = none →
        s.PinsMatch → t.st = .release) ∧
      (s.st = .symLow → s.cnt = 0 → 24 < s.idx.toNat → s.PinsMatch → t.st = .symHigh ∨ t.st = .release) ∧
      (s.st = .symLow → s.cnt = 0 → s.idx = 24 → s.rep ≠ 5 → t.st = .agcLow) ∧
      (s.st = .symLow → s.cnt = 0 → s.idx = 24 → s.rep = 5 → t.st = .release) ∧
      (s.st = .release → s.perr = .none → t.st = .done) ∧
      (s.st = .release → s.perr ≠ .none → t.st = .rejected) ∧
      (s.st.isIllegal = true → t.st = .idle))

/-- R104: in the states that reset reaches, AGC_LOW and SYM_LOW never raise InvalidSymbol, and SYM_HIGH never meets a
byte that is no symbol. -/
def Obligations.InEncodingCheckIsDead : Prop :=
  ∀ (B : Build) (s t : Pte B), s.Inv → s.st.isPulse = true → step ⟨B, s⟩ = .next ⟨B, t⟩ →
    t.perr = .none ∧ t.st ≠ .rejected ∧ ∀ i, i < 25 → dec (s.symByte i) ≠ none

/-- R111: `pin_claim` rises in CLAIM only, and falls in RELEASE, by reset or by recovery only, the pin then LOW. Over a
transmission that claims the pin it is 1 in one unbroken span of cycles, so it rises once and falls once, at the exit of
RELEASE: from the cycle after CLAIM to the cycle before the result. Over one that does not, it is never 1. -/
def Obligations.PinClaimedAndReleasedOnce : Prop :=
  (∀ (B : Build) (s t : Pte B), step ⟨B, s⟩ = .next ⟨B, t⟩ →
    (s.pinClaim = false → t.pinClaim = true →
      s.st = .claim ∧ s.ports.rst = false ∧ s.ports.pinAvail = true ∧ t.st = .validate ∧ t.pinOut = false) ∧
    (s.pinClaim = true → t.pinClaim = false →
      (s.st = .release ∨ s.ports.rst = true ∨ s.st.isIllegal = true) ∧ t.pinOut = false)) ∧
  ∀ (B : Build) (s : Pte B) (c : Command B.lenW), s.PinsMatch → s.st.acceptsStart = true → s.Presents c →
    (c.len = 25 → (s.portsIn 1).pinAvail = true → ValidCommand c.data →
      s.NoResetFor (4 + 242410 * B.ticksPerUs.val) → ∀ j, j ≤ 4 + 242410 * B.ticksPerUs.val →
        ∃ t : Pte B, Sys2Proof.core.run j ⟨B, s⟩ = .next ⟨B, t⟩ ∧
          (t.pinClaim = true ↔ 2 ≤ j ∧ j < 4 + 242410 * B.ticksPerUs.val)) ∧
    (c.len = 25 → (s.portsIn 1).pinAvail = true → ¬ValidCommand c.data → s.NoResetFor 4 → ∀ j, j ≤ 4 →
      ∃ t : Pte B, Sys2Proof.core.run j ⟨B, s⟩ = .next ⟨B, t⟩ ∧ (t.pinClaim = true ↔ 2 ≤ j ∧ j < 4)) ∧
    (c.len = 25 → (s.portsIn 1).pinAvail = false → s.NoResetFor 2 → ∀ j, j ≤ 2 →
      ∃ t : Pte B, Sys2Proof.core.run j ⟨B, s⟩ = .next ⟨B, t⟩ ∧ t.pinClaim = false) ∧
    (c.len ≠ 25 → ∀ j, j ≤ 1 →
      ∃ t : Pte B, Sys2Proof.core.run j ⟨B, s⟩ = .next ⟨B, t⟩ ∧ t.pinClaim = false)

/-- A reset in RELEASE leaves the pin and the command as the RELEASE step leaves them, and loses the result (R159); it
clears the counters too, as every reset does (R142). -/
def Obligations.ResetDuringRelease : Prop :=
  ∀ (B : Build) (s t u : Pte B), s.st = .release → exec .release ⟨B, s⟩ = .next ⟨B, t⟩ →
    exec (.reset false) ⟨B, s⟩ = .next ⟨B, u⟩ →
    u.st = .idle ∧ (t.st = .done ∨ t.st = .rejected) ∧ u.pinOut = t.pinOut ∧ u.pinClaim = t.pinClaim ∧
    u.cmdQ = t.cmdQ ∧ u.rep = 0 ∧ u.idx = 0 ∧ u.cnt = 0 ∧
    u.doneFlag = false ∧ u.err = false ∧ u.errCode = 0 ∧ u.errInfo = 0

/-- R62: a pulse state is entered with `cnt` at its hold count less one (in the states that reset reaches), and from
`cnt` it lasts exactly `cnt + 1` cycles: in each of them only `cnt` has moved, by one a cycle, and in the cycle after
them the state is another. No hold count is 0. -/
def Obligations.HoldLastsExactly : Prop :=
  (∀ (B : Build) (s t : Pte B), s.Inv → step ⟨B, s⟩ = .next ⟨B, t⟩ → t.st.isPulse = true → t.st ≠ s.st →
    t.pulseCount = some (t.cnt.toNat + 1)) ∧
  (∀ (B : Build) (s : Pte B), s.st.isPulse = true → s.NoResetFor (s.cnt.toNat + 1) →
    (∀ j, j ≤ s.cnt.toNat → Sys2Proof.core.run j ⟨B, s⟩ = .next ⟨B, { s with
      cnt := s.cnt - BitVec.ofNat _ j, driven := s.driven.drop j, cycle := s.cycle + j }⟩) ∧
    ∃ t, Sys2Proof.core.run (s.cnt.toNat + 1) ⟨B, s⟩ = .next ⟨B, t⟩ ∧ t.st ≠ s.st) ∧
  ∀ T k, 0 < holdCount T k

/-- One symbol, from the first cycle of its HIGH phase: it takes `N_SHORT + N_LONG` cycles whichever symbol it is, and
ends in the last cycle of SYM_LOW (R59, R95, R96). -/
def Obligations.SymbolPeriodLasts : Prop :=
  ∀ (B : Build) (s : Pte B) (b : Symbol), s.st = .symHigh → s.idx.toNat < 25 →
    dec (cmdByte s.cmdQ s.idx.toNat) = some b →
    s.cnt.toNat + 1 = hiDur B.ticksPerUs b → s.NoResetFor (1525 * B.ticksPerUs.val) →
    Sys2Proof.core.run (1525 * B.ticksPerUs.val - 1) ⟨B, s⟩ = .next ⟨B, { s with
      st := .symLow, cnt := 0, pinOut := false,
      driven := s.driven.drop (1525 * B.ticksPerUs.val - 1), cycle := s.cycle + (1525 * B.ticksPerUs.val - 1) }⟩

/-- One repetition that is not the sixth, from the first cycle of its AGC-low to that of the next: it takes 40335 T
cycles whatever the valid command (R102). -/
def Obligations.RepetitionLasts : Prop :=
  ∀ (B : Build) (s : Pte B), s.st = .agcLow → s.cnt.toNat + 1 = 2210 * B.ticksPerUs.val →
    ValidCommand s.cmdQ → s.rep.toNat < 5 →
    s.NoResetFor (40335 * B.ticksPerUs.val) →
    Sys2Proof.core.run (40335 * B.ticksPerUs.val) ⟨B, s⟩ = .next ⟨B, { s with
      rep := s.rep + 1, idx := 0, pinOut := false,
      driven := s.driven.drop (40335 * B.ticksPerUs.val), cycle := s.cycle + 40335 * B.ticksPerUs.val }⟩

/-- R157's success: a valid command with the pin available and no reset ends in DONE after `4 + 242410 T` cycles, with
the pin LOW and released, and is busy with the same latched command in every cycle between. -/
def Obligations.ValidTransmissionCompletes : Prop :=
  ∀ (B : Build) (s : Pte B) (c : Command B.lenW), s.st.acceptsStart = true → s.Presents c → c.len = 25 →
    ValidCommand c.data →
    (s.portsIn 1).pinAvail = true → s.NoResetFor (4 + 242410 * B.ticksPerUs.val) →
    Sys2Proof.core.run (4 + 242410 * B.ticksPerUs.val) ⟨B, s⟩ = .next ⟨B, { s with
      st := .done, cmdQ := c.data, rep := 5, idx := 24, cnt := 0, perr := .none, pinfo := 0, pinOut := false,
      pinClaim := false, driven := s.driven.drop (4 + 242410 * B.ticksPerUs.val),
      cycle := s.cycle + (4 + 242410 * B.ticksPerUs.val) }⟩ ∧
    (∀ j, 1 ≤ j → j < 4 + 242410 * B.ticksPerUs.val →
      ∃ t, Sys2Proof.core.run j ⟨B, s⟩ = .next ⟨B, t⟩ ∧ t.busy = true ∧ t.cmdQ = c.data) ∧
    ∀ j, 2 ≤ j → j < 4 + 242410 * B.ticksPerUs.val →
      ∃ t, Sys2Proof.core.run j ⟨B, s⟩ = .next ⟨B, t⟩ ∧ t.pinClaim = true

/-- R102's start cycles: repetition `r` begins its AGC-low in cycle `3 + 400 T + r * 40335 T`. -/
def Obligations.RepetitionStartCycles : Prop :=
  ∀ (B : Build) (s : Pte B) (c : Command B.lenW) (r : Nat), s.st.acceptsStart = true → s.Presents c → c.len = 25 →
    ValidCommand c.data → (s.portsIn 1).pinAvail = true → r < 6 →
    s.NoResetFor (3 + 400 * B.ticksPerUs.val + r * (40335 * B.ticksPerUs.val)) →
    ∃ t, Sys2Proof.core.run (3 + 400 * B.ticksPerUs.val + r * (40335 * B.ticksPerUs.val)) ⟨B, s⟩ = .next ⟨B, t⟩ ∧
      t.st = .agcLow ∧ t.rep.toNat = r ∧ t.idx = 0 ∧ t.cnt.toNat + 1 = 2210 * B.ticksPerUs.val ∧ t.cmdQ = c.data ∧
      t.pinOut = false ∧ t.pinClaim = true

/-- R98 to R100: what a test bench records of a valid transmission is exactly the pulse list the protocol
asks for (recording: log entry 19). -/
def Obligations.ValidTransmissionPulseList : Prop :=
  ∀ (B : Build) (s : Pte B) (c : Command B.lenW), s.st.acceptsStart = true → s.Presents c → c.len = 25 →
    ValidCommand c.data →
    (s.portsIn 1).pinAvail = true → s.NoResetFor (4 + 242410 * B.ticksPerUs.val) →
    pulsesOf (recordFor (4 + 242410 * B.ticksPerUs.val) ⟨B, s⟩) = framePulses B.ticksPerUs c.data ∧
    (pulsesOf (recordFor (4 + 242410 * B.ticksPerUs.val) ⟨B, s⟩)).length = 307

/-- The counts of R100, R102 and R103: the pulse list has 307 pulses, 51 in each repetition, takes 242410 T cycles,
40335 T in each repetition, makes 302 level periods on the wire, and every pulse has the hold count of a category. -/
def Obligations.FrameHas307Pulses : Prop :=
  ∀ (T : Ticks) (q : CmdData), ValidCommand q →
    (framePulses T q).length = 307 ∧ (repetitionPulses T q).length = 51 ∧
    totalCycles (repetitionPulses T q) = 40335 * T.val ∧ totalCycles (framePulses T q) = 242410 * T.val ∧
    (levelPeriods (framePulses T q)).length = 302 ∧
    ∀ p ∈ framePulses T q, ∃ k, p.2 = holdCount T k

/-- R128, R157: a command that is rejected ends in REJECTED after 1, 2 or 4 cycles, by length whatever its bytes and the
pin, by the pin whatever its bytes, and by the lowest-indexed invalid byte last; with `pin_claim` 1 in two cycles of the
last only. -/
def Obligations.RejectionPriorityAndLatency : Prop :=
  ∀ (B : Build) (s : Pte B) (c : Command B.lenW), s.PinsMatch → s.st.acceptsStart = true → s.Presents c →
    (c.len ≠ 25 → Sys2Proof.core.run 1 ⟨B, s⟩ = .next ⟨B, { s with
      st := .rejected, cmdQ := c.data, rep := 0, idx := 0, cnt := 0, perr := .invalidCommandLength, pinfo := c.len,
      driven := s.driven.drop 1, cycle := s.cycle + 1 }⟩) ∧
    (c.len = 25 → s.NoResetFor 2 → (s.portsIn 1).pinAvail = false → Sys2Proof.core.run 2 ⟨B, s⟩ = .next ⟨B, { s with
      st := .rejected, cmdQ := c.data, rep := 0, idx := 0, cnt := 0, perr := .pinUnavailable, pinfo := 0,
      driven := s.driven.drop 2, cycle := s.cycle + 2 }⟩) ∧
    (∀ k, c.len = 25 → s.NoResetFor 4 → (s.portsIn 1).pinAvail = true → k < 25 →
      dec (cmdByte c.data k) = none → (∀ i, i < k → dec (cmdByte c.data i) ≠ none) →
      Sys2Proof.core.run 4 ⟨B, s⟩ = .next ⟨B, { s with
        st := .rejected, cmdQ := c.data, rep := 0, idx := 0, cnt := 0, perr := .invalidSymbol,
        pinfo := (cmdByte c.data k).setWidth B.lenW.val, driven := s.driven.drop 4, cycle := s.cycle + 4 }⟩ ∧
      ∀ j, j ≤ 4 → ∃ t, Sys2Proof.core.run j ⟨B, s⟩ = .next ⟨B, t⟩ ∧ t.pinOut = false ∧
        (t.pinClaim = true ↔ j = 2 ∨ j = 3))

/-- R127: a TRANSMIT that ends in an error emits no pulse. The three errors are raised before CLAIM, in CLAIM and in
VALIDATE, so REJECTED is entered in cycle 1, 2 or 4; no cycle up to it, that one included, is in a pulse state or HIGH, and
a test bench that records them all records nothing (recording: log entry 19). -/
def Obligations.RejectedCommandEmitsNoPulse : Prop :=
  ∀ (B : Build) (s : Pte B) (c : Command B.lenW), s.PinsMatch → s.st.acceptsStart = true → s.Presents c →
    (c.len ≠ 25 →
      (∀ j, j ≤ 1 → ∃ t, Sys2Proof.core.run j ⟨B, s⟩ = .next ⟨B, t⟩ ∧ t.st.isPulse = false ∧ t.pinOut = false ∧
        (j = 1 → t.st = .rejected ∧ t.perr = .invalidCommandLength)) ∧
      pulsesOf (recordFor 2 ⟨B, s⟩) = []) ∧
    (c.len = 25 → (s.portsIn 1).pinAvail = false → s.NoResetFor 2 →
      (∀ j, j ≤ 2 → ∃ t, Sys2Proof.core.run j ⟨B, s⟩ = .next ⟨B, t⟩ ∧ t.st.isPulse = false ∧ t.pinOut = false ∧
        (j = 1 → t.st = .claim ∧ t.perr = .none) ∧
        (j = 2 → t.st = .rejected ∧ t.perr = .pinUnavailable)) ∧
      pulsesOf (recordFor 3 ⟨B, s⟩) = []) ∧
    (c.len = 25 → (s.portsIn 1).pinAvail = true → ¬ValidCommand c.data → s.NoResetFor 4 →
      (∀ j, j ≤ 4 → ∃ t, Sys2Proof.core.run j ⟨B, s⟩ = .next ⟨B, t⟩ ∧ t.st.isPulse = false ∧ t.pinOut = false ∧
        (j = 1 → t.st = .claim ∧ t.perr = .none) ∧ (j = 2 → t.st = .validate ∧ t.perr = .none) ∧
        (j = 3 → t.st = .release ∧ t.perr = .invalidSymbol) ∧
        (j = 4 → t.st = .rejected ∧ t.perr = .invalidSymbol)) ∧
      pulsesOf (recordFor 5 ⟨B, s⟩) = [])

/-- R141: in every state that reset reaches an error is shown only with the pin LOW and not claimed. -/
def Obligations.ErrorShownWithPinReleased : Prop :=
  ∀ (B : Build) (inputs : List (Ports B.lenW)) (n : Nat) (t : Pte B),
    Sys2Proof.core.run n ⟨B, { Pte.reset B with driven := inputs }⟩ = .next ⟨B, t⟩ →
    t.err = true ∨ t.doneFlag = true → t.pinOut = false ∧ t.pinClaim = false
end

