-- ==== Sys2Proof/Laws/State.lean ====
section
/-! SUPPORT. What each named update of the state does to each field, so that no later proof unfolds an update. -/

namespace Sys2Proof.Machine

variable {B : Build} (s : Pte B)

/-! `setLevel` -/

@[simp] theorem Pte.setLevel_st (level : Bool) : (s.setLevel level).st = s.st := rfl
@[simp] theorem Pte.setLevel_cmdQ (level : Bool) : (s.setLevel level).cmdQ = s.cmdQ := rfl
@[simp] theorem Pte.setLevel_rep (level : Bool) : (s.setLevel level).rep = s.rep := rfl
@[simp] theorem Pte.setLevel_idx (level : Bool) : (s.setLevel level).idx = s.idx := rfl
@[simp] theorem Pte.setLevel_cnt (level : Bool) : (s.setLevel level).cnt = s.cnt := rfl
@[simp] theorem Pte.setLevel_perr (level : Bool) : (s.setLevel level).perr = s.perr := rfl
@[simp] theorem Pte.setLevel_pinfo (level : Bool) : (s.setLevel level).pinfo = s.pinfo := rfl
@[simp] theorem Pte.setLevel_pinOut (level : Bool) : (s.setLevel level).pinOut = level := rfl
@[simp] theorem Pte.setLevel_pinClaim (level : Bool) : (s.setLevel level).pinClaim = s.pinClaim := rfl
@[simp] theorem Pte.setLevel_driven (level : Bool) : (s.setLevel level).driven = s.driven := rfl
@[simp] theorem Pte.setLevel_cycle (level : Bool) : (s.setLevel level).cycle = s.cycle := rfl

/-! `loadHold` -/

@[simp] theorem Pte.loadHold_st (n : Nat) : (s.loadHold n).st = s.st := rfl
@[simp] theorem Pte.loadHold_cmdQ (n : Nat) : (s.loadHold n).cmdQ = s.cmdQ := rfl
@[simp] theorem Pte.loadHold_rep (n : Nat) : (s.loadHold n).rep = s.rep := rfl
@[simp] theorem Pte.loadHold_idx (n : Nat) : (s.loadHold n).idx = s.idx := rfl
@[simp] theorem Pte.loadHold_cnt (n : Nat) : (s.loadHold n).cnt = BitVec.ofNat _ (n - 1) := rfl
@[simp] theorem Pte.loadHold_perr (n : Nat) : (s.loadHold n).perr = s.perr := rfl
@[simp] theorem Pte.loadHold_pinfo (n : Nat) : (s.loadHold n).pinfo = s.pinfo := rfl
@[simp] theorem Pte.loadHold_pinOut (n : Nat) : (s.loadHold n).pinOut = s.pinOut := rfl
@[simp] theorem Pte.loadHold_pinClaim (n : Nat) : (s.loadHold n).pinClaim = s.pinClaim := rfl
@[simp] theorem Pte.loadHold_driven (n : Nat) : (s.loadHold n).driven = s.driven := rfl
@[simp] theorem Pte.loadHold_cycle (n : Nat) : (s.loadHold n).cycle = s.cycle := rfl

/-! `holdTick` -/

@[simp] theorem Pte.holdTick_st : s.holdTick.st = s.st := rfl
@[simp] theorem Pte.holdTick_cmdQ : s.holdTick.cmdQ = s.cmdQ := rfl
@[simp] theorem Pte.holdTick_rep : s.holdTick.rep = s.rep := rfl
@[simp] theorem Pte.holdTick_idx : s.holdTick.idx = s.idx := rfl
@[simp] theorem Pte.holdTick_cnt : s.holdTick.cnt = s.cnt - 1#_ := rfl
@[simp] theorem Pte.holdTick_perr : s.holdTick.perr = s.perr := rfl
@[simp] theorem Pte.holdTick_pinfo : s.holdTick.pinfo = s.pinfo := rfl
@[simp] theorem Pte.holdTick_pinOut : s.holdTick.pinOut = s.pinOut := rfl
@[simp] theorem Pte.holdTick_pinClaim : s.holdTick.pinClaim = s.pinClaim := rfl
@[simp] theorem Pte.holdTick_driven : s.holdTick.driven = s.driven := rfl
@[simp] theorem Pte.holdTick_cycle : s.holdTick.cycle = s.cycle := rfl

/-! `goto` -/

@[simp] theorem Pte.goto_st (t : FsmState) : (s.goto t).st = t := rfl
@[simp] theorem Pte.goto_cmdQ (t : FsmState) : (s.goto t).cmdQ = s.cmdQ := rfl
@[simp] theorem Pte.goto_rep (t : FsmState) : (s.goto t).rep = s.rep := rfl
@[simp] theorem Pte.goto_idx (t : FsmState) : (s.goto t).idx = s.idx := rfl
@[simp] theorem Pte.goto_cnt (t : FsmState) : (s.goto t).cnt = s.cnt := rfl
@[simp] theorem Pte.goto_perr (t : FsmState) : (s.goto t).perr = s.perr := rfl
@[simp] theorem Pte.goto_pinfo (t : FsmState) : (s.goto t).pinfo = s.pinfo := rfl
@[simp] theorem Pte.goto_pinOut (t : FsmState) : (s.goto t).pinOut = s.pinOut := rfl
@[simp] theorem Pte.goto_pinClaim (t : FsmState) : (s.goto t).pinClaim = s.pinClaim := rfl
@[simp] theorem Pte.goto_driven (t : FsmState) : (s.goto t).driven = s.driven := rfl
@[simp] theorem Pte.goto_cycle (t : FsmState) : (s.goto t).cycle = s.cycle := rfl

/-! `claimPin` -/

@[simp] theorem Pte.claimPin_st : s.claimPin.st = s.st := rfl
@[simp] theorem Pte.claimPin_cmdQ : s.claimPin.cmdQ = s.cmdQ := rfl
@[simp] theorem Pte.claimPin_rep : s.claimPin.rep = s.rep := rfl
@[simp] theorem Pte.claimPin_idx : s.claimPin.idx = s.idx := rfl
@[simp] theorem Pte.claimPin_cnt : s.claimPin.cnt = s.cnt := rfl
@[simp] theorem Pte.claimPin_perr : s.claimPin.perr = s.perr := rfl
@[simp] theorem Pte.claimPin_pinfo : s.claimPin.pinfo = s.pinfo := rfl
@[simp] theorem Pte.claimPin_pinOut : s.claimPin.pinOut = false := rfl
@[simp] theorem Pte.claimPin_pinClaim : s.claimPin.pinClaim = true := rfl
@[simp] theorem Pte.claimPin_driven : s.claimPin.driven = s.driven := rfl
@[simp] theorem Pte.claimPin_cycle : s.claimPin.cycle = s.cycle := rfl

/-! `releasePin` -/

@[simp] theorem Pte.releasePin_st : s.releasePin.st = s.st := rfl
@[simp] theorem Pte.releasePin_cmdQ : s.releasePin.cmdQ = s.cmdQ := rfl
@[simp] theorem Pte.releasePin_rep : s.releasePin.rep = s.rep := rfl
@[simp] theorem Pte.releasePin_idx : s.releasePin.idx = s.idx := rfl
@[simp] theorem Pte.releasePin_cnt : s.releasePin.cnt = s.cnt := rfl
@[simp] theorem Pte.releasePin_perr : s.releasePin.perr = s.perr := rfl
@[simp] theorem Pte.releasePin_pinfo : s.releasePin.pinfo = s.pinfo := rfl
@[simp] theorem Pte.releasePin_pinOut : s.releasePin.pinOut = false := rfl
@[simp] theorem Pte.releasePin_pinClaim : s.releasePin.pinClaim = false := rfl
@[simp] theorem Pte.releasePin_driven : s.releasePin.driven = s.driven := rfl
@[simp] theorem Pte.releasePin_cycle : s.releasePin.cycle = s.cycle := rfl

/-! `resetRegs` -/

@[simp] theorem Pte.resetRegs_st : s.resetRegs.st = .idle := rfl
@[simp] theorem Pte.resetRegs_cmdQ : s.resetRegs.cmdQ = s.cmdQ := rfl
@[simp] theorem Pte.resetRegs_rep : s.resetRegs.rep = 0 := rfl
@[simp] theorem Pte.resetRegs_idx : s.resetRegs.idx = 0 := rfl
@[simp] theorem Pte.resetRegs_cnt : s.resetRegs.cnt = 0 := rfl
@[simp] theorem Pte.resetRegs_perr : s.resetRegs.perr = .none := rfl
@[simp] theorem Pte.resetRegs_pinfo : s.resetRegs.pinfo = 0 := rfl
@[simp] theorem Pte.resetRegs_pinOut : s.resetRegs.pinOut = false := rfl
@[simp] theorem Pte.resetRegs_pinClaim : s.resetRegs.pinClaim = false := rfl
@[simp] theorem Pte.resetRegs_driven : s.resetRegs.driven = s.driven := rfl
@[simp] theorem Pte.resetRegs_cycle : s.resetRegs.cycle = s.cycle := rfl

/-! `recover` -/

@[simp] theorem Pte.recover_st : s.recover.st = .idle := rfl
@[simp] theorem Pte.recover_cmdQ : s.recover.cmdQ = s.cmdQ := rfl
@[simp] theorem Pte.recover_rep : s.recover.rep = s.rep := rfl
@[simp] theorem Pte.recover_idx : s.recover.idx = s.idx := rfl
@[simp] theorem Pte.recover_cnt : s.recover.cnt = s.cnt := rfl
@[simp] theorem Pte.recover_perr : s.recover.perr = .none := rfl
@[simp] theorem Pte.recover_pinfo : s.recover.pinfo = 0 := rfl
@[simp] theorem Pte.recover_pinOut : s.recover.pinOut = false := rfl
@[simp] theorem Pte.recover_pinClaim : s.recover.pinClaim = false := rfl
@[simp] theorem Pte.recover_driven : s.recover.driven = s.driven := rfl
@[simp] theorem Pte.recover_cycle : s.recover.cycle = s.cycle := rfl

/-! `beginAgcLow` -/

@[simp] theorem Pte.beginAgcLow_st : s.beginAgcLow.st = .agcLow := rfl
@[simp] theorem Pte.beginAgcLow_cmdQ : s.beginAgcLow.cmdQ = s.cmdQ := rfl
@[simp] theorem Pte.beginAgcLow_rep : s.beginAgcLow.rep = s.rep := rfl
@[simp] theorem Pte.beginAgcLow_idx : s.beginAgcLow.idx = s.idx := rfl
@[simp] theorem Pte.beginAgcLow_cnt : s.beginAgcLow.cnt = BitVec.ofNat _ (holdCount B.ticksPerUs .agcL - 1) := rfl
@[simp] theorem Pte.beginAgcLow_perr : s.beginAgcLow.perr = s.perr := rfl
@[simp] theorem Pte.beginAgcLow_pinfo : s.beginAgcLow.pinfo = s.pinfo := rfl
@[simp] theorem Pte.beginAgcLow_pinOut : s.beginAgcLow.pinOut = false := rfl
@[simp] theorem Pte.beginAgcLow_pinClaim : s.beginAgcLow.pinClaim = s.pinClaim := rfl
@[simp] theorem Pte.beginAgcLow_driven : s.beginAgcLow.driven = s.driven := rfl
@[simp] theorem Pte.beginAgcLow_cycle : s.beginAgcLow.cycle = s.cycle := rfl

/-! `beginHigh` -/

@[simp] theorem Pte.beginHigh_st (b : Symbol) : (s.beginHigh b).st = .symHigh := rfl
@[simp] theorem Pte.beginHigh_cmdQ (b : Symbol) : (s.beginHigh b).cmdQ = s.cmdQ := rfl
@[simp] theorem Pte.beginHigh_rep (b : Symbol) : (s.beginHigh b).rep = s.rep := rfl
@[simp] theorem Pte.beginHigh_idx (b : Symbol) : (s.beginHigh b).idx = s.idx := rfl
@[simp] theorem Pte.beginHigh_cnt (b : Symbol) : (s.beginHigh b).cnt = BitVec.ofNat _ (hiDur B.ticksPerUs b - 1) := rfl
@[simp] theorem Pte.beginHigh_perr (b : Symbol) : (s.beginHigh b).perr = s.perr := rfl
@[simp] theorem Pte.beginHigh_pinfo (b : Symbol) : (s.beginHigh b).pinfo = s.pinfo := rfl
@[simp] theorem Pte.beginHigh_pinOut (b : Symbol) : (s.beginHigh b).pinOut = true := rfl
@[simp] theorem Pte.beginHigh_pinClaim (b : Symbol) : (s.beginHigh b).pinClaim = s.pinClaim := rfl
@[simp] theorem Pte.beginHigh_driven (b : Symbol) : (s.beginHigh b).driven = s.driven := rfl
@[simp] theorem Pte.beginHigh_cycle (b : Symbol) : (s.beginHigh b).cycle = s.cycle := rfl

/-! `beginLow` -/

@[simp] theorem Pte.beginLow_st (b : Symbol) : (s.beginLow b).st = .symLow := rfl
@[simp] theorem Pte.beginLow_cmdQ (b : Symbol) : (s.beginLow b).cmdQ = s.cmdQ := rfl
@[simp] theorem Pte.beginLow_rep (b : Symbol) : (s.beginLow b).rep = s.rep := rfl
@[simp] theorem Pte.beginLow_idx (b : Symbol) : (s.beginLow b).idx = s.idx := rfl
@[simp] theorem Pte.beginLow_cnt (b : Symbol) : (s.beginLow b).cnt = BitVec.ofNat _ (loDur B.ticksPerUs b - 1) := rfl
@[simp] theorem Pte.beginLow_perr (b : Symbol) : (s.beginLow b).perr = s.perr := rfl
@[simp] theorem Pte.beginLow_pinfo (b : Symbol) : (s.beginLow b).pinfo = s.pinfo := rfl
@[simp] theorem Pte.beginLow_pinOut (b : Symbol) : (s.beginLow b).pinOut = false := rfl
@[simp] theorem Pte.beginLow_pinClaim (b : Symbol) : (s.beginLow b).pinClaim = s.pinClaim := rfl
@[simp] theorem Pte.beginLow_driven (b : Symbol) : (s.beginLow b).driven = s.driven := rfl
@[simp] theorem Pte.beginLow_cycle (b : Symbol) : (s.beginLow b).cycle = s.cycle := rfl

/-! `beginLowUnstated` -/

@[simp] theorem Pte.beginLowUnstated_st (c : Byte) : (s.beginLowUnstated c).st = .symLow := rfl
@[simp] theorem Pte.beginLowUnstated_cmdQ (c : Byte) : (s.beginLowUnstated c).cmdQ = s.cmdQ := rfl
@[simp] theorem Pte.beginLowUnstated_rep (c : Byte) : (s.beginLowUnstated c).rep = s.rep := rfl
@[simp] theorem Pte.beginLowUnstated_idx (c : Byte) : (s.beginLowUnstated c).idx = s.idx := rfl
@[simp] theorem Pte.beginLowUnstated_cnt (c : Byte) : (s.beginLowUnstated c).cnt = s.unstatedLowCount c := rfl
@[simp] theorem Pte.beginLowUnstated_perr (c : Byte) : (s.beginLowUnstated c).perr = s.perr := rfl
@[simp] theorem Pte.beginLowUnstated_pinfo (c : Byte) : (s.beginLowUnstated c).pinfo = s.pinfo := rfl
@[simp] theorem Pte.beginLowUnstated_pinOut (c : Byte) : (s.beginLowUnstated c).pinOut = false := rfl
@[simp] theorem Pte.beginLowUnstated_pinClaim (c : Byte) : (s.beginLowUnstated c).pinClaim = s.pinClaim := rfl
@[simp] theorem Pte.beginLowUnstated_driven (c : Byte) : (s.beginLowUnstated c).driven = s.driven := rfl
@[simp] theorem Pte.beginLowUnstated_cycle (c : Byte) : (s.beginLowUnstated c).cycle = s.cycle := rfl

/-! `tick` -/

@[simp] theorem Pte.tick_st : s.tick.st = s.st := rfl
@[simp] theorem Pte.tick_cmdQ : s.tick.cmdQ = s.cmdQ := rfl
@[simp] theorem Pte.tick_rep : s.tick.rep = s.rep := rfl
@[simp] theorem Pte.tick_idx : s.tick.idx = s.idx := rfl
@[simp] theorem Pte.tick_cnt : s.tick.cnt = s.cnt := rfl
@[simp] theorem Pte.tick_perr : s.tick.perr = s.perr := rfl
@[simp] theorem Pte.tick_pinfo : s.tick.pinfo = s.pinfo := rfl
@[simp] theorem Pte.tick_pinOut : s.tick.pinOut = s.pinOut := rfl
@[simp] theorem Pte.tick_pinClaim : s.tick.pinClaim = s.pinClaim := rfl
@[simp] theorem Pte.tick_driven : s.tick.driven = s.driven.tail := rfl
@[simp] theorem Pte.tick_cycle : s.tick.cycle = s.cycle + 1 := rfl

/-! `drive` -/

@[simp] theorem Pte.drive_st (p : Ports B.lenW) : (s.drive p).st = s.st := rfl
@[simp] theorem Pte.drive_cmdQ (p : Ports B.lenW) : (s.drive p).cmdQ = s.cmdQ := rfl
@[simp] theorem Pte.drive_rep (p : Ports B.lenW) : (s.drive p).rep = s.rep := rfl
@[simp] theorem Pte.drive_idx (p : Ports B.lenW) : (s.drive p).idx = s.idx := rfl
@[simp] theorem Pte.drive_cnt (p : Ports B.lenW) : (s.drive p).cnt = s.cnt := rfl
@[simp] theorem Pte.drive_perr (p : Ports B.lenW) : (s.drive p).perr = s.perr := rfl
@[simp] theorem Pte.drive_pinfo (p : Ports B.lenW) : (s.drive p).pinfo = s.pinfo := rfl
@[simp] theorem Pte.drive_pinOut (p : Ports B.lenW) : (s.drive p).pinOut = s.pinOut := rfl
@[simp] theorem Pte.drive_pinClaim (p : Ports B.lenW) : (s.drive p).pinClaim = s.pinClaim := rfl
@[simp] theorem Pte.drive_driven (p : Ports B.lenW) : (s.drive p).driven = p :: s.driven.tail := rfl
@[simp] theorem Pte.drive_cycle (p : Ports B.lenW) : (s.drive p).cycle = s.cycle := rfl

/-! `raise` -/

@[simp] theorem Pte.raise_st (e : ErrorCode) (info : LenWord B.lenW) : (s.raise e info).st = if s.pinClaim then .release else .rejected := by
  unfold Pte.raise; split <;> simp_all
@[simp] theorem Pte.raise_cmdQ (e : ErrorCode) (info : LenWord B.lenW) : (s.raise e info).cmdQ = s.cmdQ := by
  unfold Pte.raise; split <;> simp_all
@[simp] theorem Pte.raise_rep (e : ErrorCode) (info : LenWord B.lenW) : (s.raise e info).rep = s.rep := by
  unfold Pte.raise; split <;> simp_all
@[simp] theorem Pte.raise_idx (e : ErrorCode) (info : LenWord B.lenW) : (s.raise e info).idx = s.idx := by
  unfold Pte.raise; split <;> simp_all
@[simp] theorem Pte.raise_cnt (e : ErrorCode) (info : LenWord B.lenW) : (s.raise e info).cnt = s.cnt := by
  unfold Pte.raise; split <;> simp_all
@[simp] theorem Pte.raise_perr (e : ErrorCode) (info : LenWord B.lenW) : (s.raise e info).perr = e := by
  unfold Pte.raise; split <;> simp_all
@[simp] theorem Pte.raise_pinfo (e : ErrorCode) (info : LenWord B.lenW) : (s.raise e info).pinfo = info := by
  unfold Pte.raise; split <;> simp_all
@[simp] theorem Pte.raise_pinOut (e : ErrorCode) (info : LenWord B.lenW) : (s.raise e info).pinOut = if s.pinClaim then false else s.pinOut := by
  unfold Pte.raise; split <;> simp_all
@[simp] theorem Pte.raise_pinClaim (e : ErrorCode) (info : LenWord B.lenW) : (s.raise e info).pinClaim = s.pinClaim := by
  unfold Pte.raise; split <;> simp_all
@[simp] theorem Pte.raise_driven (e : ErrorCode) (info : LenWord B.lenW) : (s.raise e info).driven = s.driven := by
  unfold Pte.raise; split <;> simp_all
@[simp] theorem Pte.raise_cycle (e : ErrorCode) (info : LenWord B.lenW) : (s.raise e info).cycle = s.cycle := by
  unfold Pte.raise; split <;> simp_all

/-! `accept` -/

@[simp] theorem Pte.accept_st (c : Command B.lenW) : (s.accept c).st = if c.len = 25 then .claim else .rejected := by
  unfold Pte.accept; split <;> simp_all
@[simp] theorem Pte.accept_cmdQ (c : Command B.lenW) : (s.accept c).cmdQ = c.data := by
  unfold Pte.accept; split <;> simp_all
@[simp] theorem Pte.accept_rep (c : Command B.lenW) : (s.accept c).rep = 0 := by
  unfold Pte.accept; split <;> simp_all
@[simp] theorem Pte.accept_idx (c : Command B.lenW) : (s.accept c).idx = 0 := by
  unfold Pte.accept; split <;> simp_all
@[simp] theorem Pte.accept_cnt (c : Command B.lenW) : (s.accept c).cnt = 0 := by
  unfold Pte.accept; split <;> simp_all
@[simp] theorem Pte.accept_perr (c : Command B.lenW) : (s.accept c).perr = if c.len = 25 then .none else .invalidCommandLength := by
  unfold Pte.accept; split <;> simp_all
@[simp] theorem Pte.accept_pinfo (c : Command B.lenW) : (s.accept c).pinfo = if c.len = 25 then 0 else c.len := by
  unfold Pte.accept; split <;> simp_all
@[simp] theorem Pte.accept_pinOut (c : Command B.lenW) : (s.accept c).pinOut = s.pinOut := by
  unfold Pte.accept; split <;> simp_all
@[simp] theorem Pte.accept_pinClaim (c : Command B.lenW) : (s.accept c).pinClaim = s.pinClaim := by
  unfold Pte.accept; split <;> simp_all
@[simp] theorem Pte.accept_driven (c : Command B.lenW) : (s.accept c).driven = s.driven := by
  unfold Pte.accept; split <;> simp_all
@[simp] theorem Pte.accept_cycle (c : Command B.lenW) : (s.accept c).cycle = s.cycle := by
  unfold Pte.accept; split <;> simp_all

end Sys2Proof.Machine
end

