-- ==== Sys2Proof/Laws/Operands.lean ====
section
/-! SUPPORT. What the operand functions answer: byte order, symbol decoding, hold counts and the first invalid byte. -/

namespace Sys2Proof

@[simp] theorem length_leBytes (k v : Nat) : (leBytes k v).length = k := by
  induction k generalizing v with
  | zero => rfl
  | succ k ih => simp [leBytes, ih]

/-- Reading back the `k` low bytes of a number (R42). -/
theorem leNat_leBytes (k v : Nat) : leNat (leBytes k v) = v % 2 ^ (8 * k) := by
  induction k generalizing v with
  | zero => simp [leBytes, leNat, Nat.mod_one]
  | succ k ih =>
    have h : 2 ^ (8 * (k + 1)) = 256 * 2 ^ (8 * k) := by rw [Nat.mul_succ, Nat.pow_add]; omega
    rw [leBytes, leNat, ih, h, Nat.mod_mul]
    simp

/-- A value's bytes give it back when there are enough of them. -/
theorem ofNat_leNat_leBytes {w k : Nat} (h : w ≤ 8 * k) (x : BitVec w) :
    BitVec.ofNat w (leNat (leBytes k x.toNat)) = x := by
  rw [leNat_leBytes, Nat.mod_eq_of_lt (lt_of_lt_of_le x.isLt (Nat.pow_le_pow_right (by omega) h))]
  simp

theorem pred_lt_two_pow_clog2 {n : Nat} (h : 0 < n) : n - 1 < 2 ^ Config.clog2 n := by
  unfold Config.clog2
  split
  · omega
  · exact Nat.lt_log2_self

@[simp] theorem dec_zero : dec 0x30#8 = some .zero := rfl
@[simp] theorem dec_one : dec 0x31#8 = some .one := rfl

theorem dec_eq_none_iff (c : Byte) : dec c = none ↔ c ≠ 0x30#8 ∧ c ≠ 0x31#8 := by
  unfold dec; split <;> [skip; split] <;> simp_all

theorem dec_eq_zero_iff (c : Byte) : dec c = some .zero ↔ c = 0x30#8 := by
  unfold dec; split <;> [skip; split] <;> simp_all

theorem dec_eq_one_iff (c : Byte) : dec c = some .one ↔ c = 0x31#8 := by
  unfold dec; split <;> [skip; split] <;> simp_all

/-- A length that `LEN_W` bits hold is presented as it is (R55). -/
theorem lenOperand_of_lt {W : LenWidth} {n : Nat} (h : n < 2 ^ W.val) : lenOperand W n = BitVec.ofNat W.val n := by
  rw [lenOperand, min_eq_left (by omega)]

theorem toNat_lenOperand_of_lt {W : LenWidth} {n : Nat} (h : n < 2 ^ W.val) : (lenOperand W n).toNat = n := by
  rw [lenOperand_of_lt h, BitVec.toNat_ofNat, Nat.mod_eq_of_lt h]

/-- A longer one is presented as all ones (R55). -/
theorem lenOperand_of_ge {W : LenWidth} {n : Nat} (h : 2 ^ W.val ≤ n) : lenOperand W n = BitVec.allOnes W.val := by
  rw [lenOperand, min_eq_right (by omega)]
  apply BitVec.eq_of_toNat_eq
  have := Nat.two_pow_pos W.val
  rw [BitVec.toNat_ofNat, BitVec.toNat_allOnes, Nat.mod_eq_of_lt (by omega)]

/-- What `cmd_len` holds is presented as it is. -/
@[simp] theorem lenOperand_toNat {W : LenWidth} (l : LenWord W) : lenOperand W l.toNat = l := by
  rw [lenOperand_of_lt l.isLt, BitVec.ofNat_toNat, BitVec.setWidth_eq]

/-- Every `LEN_W` has more than 25 values (R11). -/
theorem lt_two_pow_lenW (W : LenWidth) : 255 < 2 ^ W.val :=
  lt_of_lt_of_le (by decide) (Nat.pow_le_pow_right (by omega) W.2)

/-- The operand is the legal length exactly when the length is (R55, R63). -/
theorem lenOperand_eq_25_iff (W : LenWidth) (n : Nat) : lenOperand W n = 25 ↔ n = 25 := by
  have hw := lt_two_pow_lenW W
  rw [← BitVec.toNat_inj]
  have h25 : (25 : LenWord W).toNat = 25 := by
    show (BitVec.ofNat W.val 25).toNat = 25
    rw [BitVec.toNat_ofNat, Nat.mod_eq_of_lt (by omega)]
  rw [h25, lenOperand, BitVec.toNat_ofNat, Nat.mod_eq_of_lt (by omega)]
  omega

namespace Machine

/-- `firstInvalid` answers nothing exactly on a valid command. -/
theorem firstInvalid_eq_none_iff (q : CmdData) : firstInvalid q = none ↔ ValidCommand q := by
  simp only [firstInvalid, ValidCommand, Config.nSym, List.find?_eq_none, List.mem_map, List.mem_range]
  constructor
  · intro h i hi hn
    exact h _ ⟨i, hi, rfl⟩ (by simp [hn])
  · rintro h _ ⟨i, hi, rfl⟩
    cases hd : dec (cmdByte q i) with
    | none => exact absurd hd (h i hi)
    | some b => simp

/-- `firstInvalid` answers the lowest-indexed byte that is no symbol (R129). -/
theorem firstInvalid_of_least {q : CmdData} {k : Nat} (hk : k < 25) (hn : dec (cmdByte q k) = none)
    (hl : ∀ i, i < k → dec (cmdByte q i) ≠ none) : firstInvalid q = some (cmdByte q k) := by
  have h25 : Config.nSym = k + (25 - k) := by simp [Config.nSym]; omega
  rw [firstInvalid, h25, List.range_add, List.map_append, List.find?_append]
  have h1 : ((List.range k).map (cmdByte q)).find? (fun c => (dec c).isNone) = none := by
    simp only [List.find?_eq_none, List.mem_map, List.mem_range]
    rintro _ ⟨i, hi, rfl⟩
    cases hd : dec (cmdByte q i) with
    | none => exact absurd hd (hl i hi)
    | some b => simp
  rw [h1, List.map_map]
  obtain ⟨m, hm⟩ : ∃ m, 25 - k = m + 1 := ⟨25 - k - 1, by omega⟩
  simp [hm, List.range_succ_eq_map, hn]

theorem Pte.symByte_of_lt {B : Build} {s : Pte B} {i : Nat} (h : i < 25) : s.symByte i = cmdByte s.cmdQ i := by
  simp [Pte.symByte, Config.nSym, h]

@[simp] theorem holdCount_agcH (T : Ticks) : holdCount T .agcH = 400 * T.val := rfl
@[simp] theorem holdCount_agcL (T : Ticks) : holdCount T .agcL = 2210 * T.val := rfl
@[simp] theorem hiDur_zero (T : Ticks) : hiDur T .zero = 335 * T.val := rfl
@[simp] theorem hiDur_one (T : Ticks) : hiDur T .one = 1190 * T.val := rfl
@[simp] theorem loDur_zero (T : Ticks) : loDur T .zero = 1190 * T.val := rfl
@[simp] theorem loDur_one (T : Ticks) : loDur T .one = 335 * T.val := rfl

/-- No hold count is zero (R62). -/
theorem holdCount_pos (T : Ticks) (k : PulseCategory) : 0 < holdCount T k := by
  have := T.2
  cases k <;>
    simp [holdCount, Config.nAgcHigh, Config.nAgcLow, Config.nShort, Config.nLong, Config.dAgcHigh,
      Config.dAgcLow, Config.dShort, Config.dLong] <;> omega

/-- The AGC-low pulse has the largest hold count (R25). -/
theorem holdCount_le (T : Ticks) (k : PulseCategory) : holdCount T k ≤ Config.nAgcLow T := by
  cases k <;>
    simp [holdCount, Config.nAgcHigh, Config.nAgcLow, Config.nShort, Config.nLong, Config.dAgcHigh,
      Config.dAgcLow, Config.dShort, Config.dLong] <;> omega

/-- `N - 1` fits the `CNT_W` bits of `cnt` for every hold count `N` (R12, R109). -/
theorem holdCount_pred_lt (T : Ticks) (k : PulseCategory) : holdCount T k - 1 < 2 ^ Config.cntW T := by
  have h : Config.nAgcLow T - 1 < 2 ^ Config.cntW T := pred_lt_two_pow_clog2 (holdCount_pos T .agcL)
  have hk := holdCount_le T k
  omega

/-! So loading `cnt` with it loses nothing; in the form `BitVec.toNat_ofNat` leaves. -/

@[simp] theorem hiDur_pred_mod (T : Ticks) (b : Symbol) :
    (hiDur T b - 1) % 2 ^ Config.cntW T = hiDur T b - 1 := Nat.mod_eq_of_lt (holdCount_pred_lt T _)
@[simp] theorem loDur_pred_mod (T : Ticks) (b : Symbol) :
    (loDur T b - 1) % 2 ^ Config.cntW T = loDur T b - 1 := Nat.mod_eq_of_lt (holdCount_pred_lt T _)
@[simp] theorem agcHigh_pred_mod (T : Ticks) : (400 * T.val - 1) % 2 ^ Config.cntW T = 400 * T.val - 1 :=
  Nat.mod_eq_of_lt (holdCount_pred_lt T .agcH)
@[simp] theorem agcLow_pred_mod (T : Ticks) : (2210 * T.val - 1) % 2 ^ Config.cntW T = 2210 * T.val - 1 :=
  Nat.mod_eq_of_lt (holdCount_pred_lt T .agcL)

/-- A count above 0 goes down by one (R109); in the form simp leaves, without `BitVec.toNat_sub`. -/
theorem toNat_pred {w : Nat} {x : BitVec w} (h : x ≠ 0) : (x - 1#w).toNat = x.toNat - 1 := by
  have hx : x.toNat ≠ 0 := fun e => h (BitVec.eq_of_toNat_eq (by simpa using e))
  have h1 : (1#w).toNat = 1 := by
    have := x.isLt
    rw [BitVec.toNat_ofNat, Nat.mod_eq_of_lt (by omega)]
  rw [BitVec.toNat_sub_of_le (by rw [BitVec.le_def, h1]; omega), h1]

/-- One cycle of a hold that is not over takes one off `cnt` (R116). -/
theorem Pte.toNat_holdTick_cnt {B : Build} {s : Pte B} (h : s.cnt ≠ 0) :
    s.holdTick.cnt.toNat = s.cnt.toNat - 1 := toNat_pred h

/-- The symbol period is the same for both symbols (R59). -/
theorem hiDur_add_loDur (T : Ticks) (b : Symbol) : hiDur T b + loDur T b = 1525 * T.val := by
  cases b <;> simp <;> omega

end Machine
end Sys2Proof
end

