-- ==== Sys2Proof/Laws/PerInstr.lean ====
section
/-! SUPPORT. Statements made for every instruction, one lemma per constructor. -/

namespace Sys2Proof.Laws.ImageSize

/-- The byte image of an instruction has its format's size: one form per format, none of variable length (R53, R66). -/
def Statement (i : Instr) : Prop :=
  ∀ W : LenWidth, (encodeBytes W i).length = (encode W i).format.imageBytes W

theorem nop : Statement .nop := by
  intro W
  simp [encodeBytes, encode, Code.bytes, Code.format, Format.imageBytes]
  omega
theorem transmit (cmdLen : Nat) (cmdData : CmdData) : Statement (.transmit cmdLen cmdData) := by
  intro W
  simp [encodeBytes, encode, Code.bytes, Code.format, Format.imageBytes]
  omega
theorem reset (start : Bool) : Statement (.reset start) := by
  intro W
  cases start <;> simp [encodeBytes, encode, Code.bytes, Code.format, Format.imageBytes] <;> omega
theorem sym0 : Statement .sym0 := fun _ => rfl
theorem sym1 : Statement .sym1 := fun _ => rfl
theorem symInvalid (c : Byte) : Statement (.symInvalid c) := fun _ => rfl
theorem idle : Statement .idle := fun _ => rfl
theorem claim : Statement .claim := fun _ => rfl
theorem validate : Statement .validate := fun _ => rfl
theorem agcHigh : Statement .agcHigh := fun _ => rfl
theorem agcLow : Statement .agcLow := fun _ => rfl
theorem symHigh : Statement .symHigh := fun _ => rfl
theorem symLow : Statement .symLow := fun _ => rfl
theorem release : Statement .release := fun _ => rfl
theorem done : Statement .done := fun _ => rfl
theorem rejected : Statement .rejected := fun _ => rfl
theorem illegalState1011 (low : BitVec 1) : Statement (.illegalState1011 low) := fun _ => rfl
theorem illegalState1215 (low : BitVec 2) : Statement (.illegalState1215 low) := fun _ => rfl

end Sys2Proof.Laws.ImageSize
end

