-- ==== Sys2Proof/Laws/Step.lean ====
section
/-! SUPPORT. What a step can do, said once: the step as R83 writes it, the ports of later cycles, the one-cycle lemmas
of a pulse state, and runs of many steps. -/

namespace Sys2Proof.Machine

variable {B : Build}

/-- The registers after an edge, before the next cycle's ports: R83's two arms. -/
def Pte.regsAfter (s : Pte B) : Pte B :=
  if s.ports.rst then s.resetRegs else stateStep s.ports.command s

/-- The state after an edge. -/
def Pte.edge (s : Pte B) : Pte B := s.regsAfter.tick

theorem Pte.fetch_of_rst {s : Pte B} (h : s.ports.rst = true) : s.fetch = .reset s.ports.start := by
  cases hs : s.ports.start <;> simp [Pte.fetch, Pte.fetchCode, Ports.ctrlWord, decode, decodeCtrl, h, hs]

theorem Pte.fetch_of_start {s : Pte B} (h : s.ports.rst = false) (hs : s.ports.start = true) :
    s.fetch = .transmit s.ports.cmdLen.toNat s.ports.cmdData := by
  simp [Pte.fetch, Pte.fetchCode, Ports.ctrlWord, decode, decodeCtrl, h, hs]

theorem Pte.fetch_of_nop {s : Pte B} (h : s.ports.rst = false) (hs : s.ports.start = false) :
    s.fetch = .nop := by
  simp [Pte.fetch, Pte.fetchCode, Ports.ctrlWord, decode, decodeCtrl, h, hs]

theorem Pte.exec_fetch (s : Pte B) : exec s.fetch ⟨B, s⟩ = .next ⟨B, s.regsAfter⟩ := by
  cases h : s.ports.rst with
  | true => simp [Pte.fetch_of_rst h, exec, execReset, Pte.regsAfter, h]
  | false =>
    cases hs : s.ports.start with
    | true => simp [Pte.fetch_of_start h hs, exec, execTransmit, Pte.regsAfter, Ports.command, h, hs]
    | false => simp [Pte.fetch_of_nop h hs, exec, execNop, Pte.regsAfter, Ports.command, h, hs]

/-- Every step is one edge. -/
theorem step_eq_edge (s : Pte B) : step ⟨B, s⟩ = .next ⟨B, s.edge⟩ := by
  simp [step, Pte.exec_fetch, Pte.edge]

theorem core_run_succ (n : Nat) (s : Pte B) :
    Sys2Proof.core.run (n + 1) ⟨B, s⟩ = Sys2Proof.core.run n ⟨B, s.edge⟩ := by
  have h : Sys2Proof.core.step ⟨B, s⟩ = .next ⟨B, s.edge⟩ := step_eq_edge s
  have hr := Host.Core.run.eq_2 Sys2Proof.core ⟨B, s⟩ n
  rw [hr, h]

/-- A run is as many edges. -/
theorem core_run_eq (n : Nat) (s : Pte B) : Sys2Proof.core.run n ⟨B, s⟩ = .next ⟨B, Pte.edge^[n] s⟩ := by
  induction n generalizing s with
  | zero => rfl
  | succ n ih => rw [core_run_succ, ih, Function.iterate_succ_apply]

theorem statesFor_succ (n : Nat) (s : Pte B) : statesFor (n + 1) ⟨B, s⟩ = ⟨B, s⟩ :: statesFor n ⟨B, s.edge⟩ := by
  rw [statesFor, step_eq_edge]

@[simp] theorem Pte.portsIn_tick (s : Pte B) (j : Nat) : s.tick.portsIn j = s.portsIn (j + 1) := by
  simp only [Pte.portsIn, Pte.tick]
  cases s.driven <;> simp [Nat.add_comm, Nat.add_left_comm]

/-- The registers' part of a step writes none of the environment's fields. -/
theorem stateStep_fixed (cmd : Option (Command B.lenW)) (s : Pte B) :
    (stateStep cmd s).driven = s.driven ∧ (stateStep cmd s).cycle = s.cycle := by
  unfold stateStep
  split <;> simp only [idleStep, doneStep, rejectedStep, restStep, claimStep, validateStep, agcHighStep, agcLowStep,
    symHighStep, symLowStep, releaseStep, illegalStep1011, illegalStep1215, Pte.raiseInvalidSymbol] <;>
    (repeat' split) <;> simp

theorem Pte.regsAfter_fixed (s : Pte B) : s.regsAfter.driven = s.driven ∧ s.regsAfter.cycle = s.cycle := by
  unfold Pte.regsAfter
  split
  · simp
  · exact stateStep_fixed _ _

@[simp] theorem Pte.edge_driven (s : Pte B) : s.edge.driven = s.driven.tail := by
  simp [Pte.edge, s.regsAfter_fixed.1]
@[simp] theorem Pte.edge_cycle (s : Pte B) : s.edge.cycle = s.cycle + 1 := by
  simp [Pte.edge, s.regsAfter_fixed.2]

theorem Pte.portsIn_congr {s t : Pte B} (hd : s.driven = t.driven) (hc : s.cycle = t.cycle) (j : Nat) :
    s.portsIn j = t.portsIn j := by
  simp [Pte.portsIn, hd, hc]

@[simp] theorem Pte.portsIn_edge (s : Pte B) (j : Nat) : s.edge.portsIn j = s.portsIn (j + 1) := by
  rw [Pte.edge, Pte.portsIn_tick, Pte.portsIn_congr s.regsAfter_fixed.1 s.regsAfter_fixed.2]

@[simp] theorem Pte.ports_edge (s : Pte B) : s.edge.ports = s.portsIn 1 := s.portsIn_edge 0

@[simp] theorem Pte.ports_drive (p : Ports B.lenW) (s : Pte B) : (s.drive p).ports = p := rfl

theorem Pte.NoResetFor.edge {n : Nat} {s : Pte B} (h : s.NoResetFor (n + 1)) : s.edge.NoResetFor n := by
  intro j hj
  rw [Pte.portsIn_edge]
  exact h (j + 1) (by omega)

theorem Pte.NoResetFor.mono {m n : Nat} {s : Pte B} (h : s.NoResetFor n) (hm : m ≤ n) : s.NoResetFor m :=
  fun j hj => h j (by omega)

theorem Pte.NoResetFor.now {n : Nat} {s : Pte B} (h : s.NoResetFor (n + 1)) : s.ports.rst = false := h 0 (by omega)

/-- Driving `rst` at 0 for long enough is no reset. -/
theorem Pte.NoResetFor.of_driven {n : Nat} {s : Pte B} (hn : n ≤ s.driven.length)
    (h : ∀ p ∈ s.driven, p.rst = false) : s.NoResetFor n := by
  intro j hj
  have hl : j < s.driven.length := by omega
  rw [Pte.portsIn, List.getD_eq_getElem _ _ hl]
  exact h _ (List.getElem_mem hl)

theorem Pte.edge_of_no_reset {s : Pte B} (h : s.ports.rst = false) :
    s.edge = (stateStep s.ports.command s).tick := by
  simp [Pte.edge, Pte.regsAfter, h]

/-- A cycle of a hold that is not over (R116). -/
theorem Pte.edge_hold {s : Pte B} (hr : s.ports.rst = false) (hp : s.st.isPulse = true) (hc : s.cnt ≠ 0) :
    s.edge = s.holdTick.tick := by
  rw [Pte.edge_of_no_reset hr]
  cases hst : s.st <;> simp_all [FsmState.isPulse, stateStep, agcHighStep, agcLowStep, symHighStep, symLowStep]

/-- A state of rest accepts the command that a TRANSMIT presents (R73, R77). -/
theorem stateStep_of_accepts {s : Pte B} (h : s.st.acceptsStart = true) (c : Command B.lenW) :
    stateStep (some c) s = s.accept c := by
  cases hs : s.st <;>
    simp_all [FsmState.acceptsStart, stateStep, idleStep, doneStep, rejectedStep, restStep]

/-- Under NOP a state of rest changes nothing (R75, R84). -/
theorem stateStep_of_rest {s : Pte B} (h : s.st.acceptsStart = true) : stateStep none s = s := by
  cases hs : s.st <;>
    simp_all [FsmState.acceptsStart, stateStep, idleStep, doneStep, rejectedStep, restStep]

/-- Where TRANSMIT is not accepted, the state step does not read the command (R57). -/
theorem stateStep_of_ignores {s : Pte B} (h : s.st.acceptsStart = false) (cmd : Option (Command B.lenW)) :
    stateStep cmd s = stateStep none s := by
  cases hs : s.st <;> simp_all [FsmState.acceptsStart, stateStep]

end Sys2Proof.Machine
end

