-- ==== Sys2Proof/Tests/Slice0.lean ====
section
/-! SUPPORT. Tests: the smoke test of WellFormed, words written out from the spec's encodings, the spec's own vectors
(95_test_vectors.md, at `TICKS_PER_US` 1 unless said), and a witness for the hypotheses of each obligation. Every
expected value is the spec's. -/

namespace Sys2Proof.Tests

open Sys2Proof.Machine

/-- The spec's default parameters. -/
abbrev buildD : Build := Config.defaultBuild
/-- The default `LEN_W`. -/
abbrev w16 : LenWidth := buildD.lenW

/-- The registers of the next state of an outcome, if it is one with the build parameters `B`. -/
def nextAt (B : Build) (o : Host.Outcome State Fault Refusal) : Option (Pte B) :=
  match o with
  | .next t => if h : t.build = B then some (h ▸ t.pte) else none
  | .fault _ => none
  | .refused _ => none

/-- The same at the spec's default parameters. -/
def nextOf (o : Host.Outcome State Fault Refusal) : Option (Pte buildD) := nextAt _ o

/-- The machine with given registers, at the spec's default parameters. -/
abbrev machine (s : Pte buildD) : State := ⟨_, s⟩

/-! The commands of 95_test_vectors.md. -/
def k1 : CmdData := 0x31303130313031303130313031303130313031303130313031#200
def k2 : CmdData := 0x30303030303030303030303030303030303030303030303030#200
def k3 : CmdData := 0x31313131313131313131313131313131313131313131313131#200
def k4 : CmdData := 0x30303030303030303030303078303030303030303030303030#200
def k6 : CmdData := 0x3130#200
def k7 : CmdData := 0x30303030303030303030303030613030303030303030303032#200

/-- A state with a latched command, the pins as the STATE format says of it, and a NOP cycle driven. -/
def at' (st : FsmState) (q : CmdData) : Pte buildD :=
  { Pte.reset _ with st := st, cmdQ := q, pinClaim := st.claims, pinOut := st.isHigh, driven := [nopPorts true] }

/-! ## WellFormed -/

theorem test_wellFormed_refuses_sym0_as_invalid : WellFormed w16 (.symInvalid 0x30#8) = false := by decide
theorem test_wellFormed_refuses_sym1_as_invalid : WellFormed w16 (.symInvalid 0x31#8) = false := by decide
theorem test_wellFormed_refuses_long_length : WellFormed ⟨8, by decide⟩ (.transmit 256 k1) = false := by decide
theorem test_wellFormed_admits_longest_length : WellFormed ⟨8, by decide⟩ (.transmit 255 k1) = true := by decide
theorem test_wellFormed_admits_other_byte : WellFormed w16 (.symInvalid 0xB0#8) = true := by decide

/-! ## Words, bit by bit from R56, R58 and R60 -/

theorem test_decode_nop : decode (W := w16) (.ctrl 0b00#2 25 k1) = .nop := by decide
theorem test_decode_transmit : decode (W := w16) (.ctrl 0b01#2 25 k1) = .transmit 25 k1 := by decide
theorem test_decode_reset : decode (W := w16) (.ctrl 0b10#2 0 0) = .reset false := by decide
theorem test_decode_reset_start : decode (W := w16) (.ctrl 0b11#2 25 k1) = .reset true := by decide
theorem test_decode_sym0 : decode (W := w16) (.sym 0b00110000#8) = .sym0 := by decide
theorem test_decode_sym1 : decode (W := w16) (.sym 0b00110001#8) = .sym1 := by decide
theorem test_decode_symInvalid_bit7 : decode (W := w16) (.sym 0b10110001#8) = .symInvalid 0xB1#8 := by decide
theorem test_decode_idle : decode (W := w16) (.state 0b0000#4) = .idle := by decide
theorem test_decode_claim : decode (W := w16) (.state 0b0001#4) = .claim := by decide
theorem test_decode_validate : decode (W := w16) (.state 0b0010#4) = .validate := by decide
theorem test_decode_agcHigh : decode (W := w16) (.state 0b0011#4) = .agcHigh := by decide
theorem test_decode_agcLow : decode (W := w16) (.state 0b0100#4) = .agcLow := by decide
theorem test_decode_symHigh : decode (W := w16) (.state 0b0101#4) = .symHigh := by decide
theorem test_decode_symLow : decode (W := w16) (.state 0b0110#4) = .symLow := by decide
theorem test_decode_release : decode (W := w16) (.state 0b0111#4) = .release := by decide
theorem test_decode_done : decode (W := w16) (.state 0b1000#4) = .done := by decide
theorem test_decode_rejected : decode (W := w16) (.state 0b1001#4) = .rejected := by decide
theorem test_decode_illegal11 : decode (W := w16) (.state 0b1011#4) = .illegalState1011 1#1 := by decide
theorem test_decode_illegal13 : decode (W := w16) (.state 0b1101#4) = .illegalState1215 1#2 := by decide

/-- The whole byte of a table word is read in the order CTRL, STATE, SYM (log entry 12). -/
theorem test_tableWord_order : decodeTableWord 8 2 = some (.reset false) ∧ decodeTableWord 8 7 = some .release ∧
    decodeTableWord 8 0x31 = some .sym1 ∧ decodeTableWord 4 1 = some .claim ∧ decodeTableWord 2 4 = none := by
  decide

/-- A placed word is what the very next step runs. -/
theorem test_placed_word_runs :
    (nextOf (step (State.reset.withFetchWord 8 1))).map (fun t => (t.st, t.perr, t.pinfo)) =
        some (.rejected, .invalidCommandLength, 0#16) ∧
      (nextOf (step (State.reset.withFetchWord 8 6))).map (fun t => (t.st, t.rep, t.idx)) =
        (nextOf (exec .symLow (State.reset.withFetchWord 8 6))).map (fun t => (t.st, t.rep, t.idx)) ∧
      (nextOf (step (State.reset.withFetchWord 8 0x31))).map (fun t => (t.st, t.cnt.toNat, t.pinOut)) =
        some (.symHigh, 1189, true) := by
  decide

/-! ## The spec's vectors, one step each -/

/-- V-C12 and V-C1: a NOP changes only what the state step changes; in IDLE nothing. -/
theorem test_nop_in_idle : (nextOf (exec .nop ⟨_, at' .idle k1⟩)) = some (at' .idle k1) := by decide
/-- V-T6. -/
theorem test_nop_in_agcHigh : (nextOf (exec .nop ⟨_, { at' .agcHigh k1 with cnt := 399 }⟩)).map
    (fun t => (t.st, t.cnt.toNat, t.pinOut)) = some (.agcHigh, 398, true) := by decide
/-- V-C2. -/
theorem test_transmit_valid_length : (nextOf (exec (.transmit 25 k1) ⟨_, at' .idle 0⟩)).map
    (fun t => (t.st, t.cmdQ, t.perr, t.pinfo)) = some (.claim, k1, .none, 0#16) := by decide
/-- V-C9 and V-L6: rejected by length from REJECTED, the bytes not examined. -/
theorem test_transmit_wrong_length : (nextOf (exec (.transmit 26 k4) ⟨_, at' .rejected k6⟩)).map
    (fun t => (t.st, t.errCode, t.errInfo)) = some (.rejected, 1#2, 0x001A#16) := by decide
/-- V-C6: start is ignored while busy. -/
theorem test_transmit_while_busy : (nextOf (exec (.transmit 25 k2) ⟨_, { at' .agcHigh k1 with cnt := 394 }⟩)).map
    (fun t => (t.st, t.cnt.toNat, t.cmdQ)) = some (.agcHigh, 393, k1) := by decide
/-- V-R2: RESET wins over start in AGC_LOW; `cmd_q` is kept. -/
theorem test_reset_in_agcLow : (nextOf (exec (.reset true) ⟨_, { at' .agcLow k1 with cnt := 2112 }⟩)).map
    (fun t => (t.st, t.cnt.toNat, t.pinOut, t.pinClaim, t.cmdQ)) = some (.idle, 0, false, false, k1) := by decide

/-- V-S1 at the exit of AGC_LOW. -/
theorem test_sym0_high : (nextOf (exec .sym0 ⟨_, at' .agcLow k2⟩)).map (fun t => (t.st, t.cnt.toNat, t.pinOut)) =
    some (.symHigh, 334, true) := by decide
/-- A PTE built with two ticks a microsecond and the narrowest `LEN_W`. -/
def build2 : Build := ⟨⟨2, by decide⟩, ⟨8, by decide⟩⟩

/-- V-S1 at the exit of SYM_HIGH, at `TICKS_PER_US` 2 (2380 cycles). -/
theorem test_sym0_low : (nextAt build2 (exec .sym0 ⟨_, { Pte.reset build2 with st := .symHigh, cmdQ := k2 }⟩)).map
    (fun t => (t.st, t.cnt.toNat, t.pinOut)) = some (.symLow, 2379, false) := by decide
/-- R55 and U8 at `LEN_W` 8: a string of 281 characters, whose low eight bits are 25, is presented as 255 and rejected. -/
theorem test_transmit_saturates : (nextAt build2 (exec (.transmit 281 k1) ⟨_, Pte.reset build2⟩)).map
    (fun t => (t.st, t.errInfo.toNat)) = some (.rejected, 255) := by decide
/-- V-S2 at the exit of AGC_LOW. -/
theorem test_sym1_high : (nextOf (exec .sym1 ⟨_, at' .agcLow k1⟩)).map (fun t => (t.st, t.cnt.toNat, t.pinOut)) =
    some (.symHigh, 1189, true) := by decide
/-- V-S2 at the exit of SYM_HIGH. -/
theorem test_sym1_low : (nextOf (exec .sym1 ⟨_, at' .symHigh k1⟩)).map (fun t => (t.st, t.cnt.toNat, t.pinOut)) =
    some (.symLow, 334, false) := by decide
/-- V-S8 in VALIDATE. -/
theorem test_symInvalid_in_validate : (nextOf (exec (.symInvalid 0xB0#8) ⟨_, at' .validate k4⟩)).map
    (fun t => (t.st, t.perr, t.pinfo)) = some (.release, .invalidSymbol, 0x00B0#16) := by decide

/-- R84's example: IDLE with a TRANSMIT of K1 on the ports goes to CLAIM. -/
theorem test_idle_accepts : (nextOf (exec .idle ⟨_, { at' .idle 0 with driven := [transmitPorts true ⟨25, k1⟩] }⟩)).map
    (fun t => (t.st, t.cmdQ)) = some (.claim, k1) := by decide
/-- V-T1. -/
theorem test_claim_available : (nextOf (exec .claim ⟨_, at' .claim k1⟩)).map
    (fun t => (t.st, t.pinClaim, t.pinOut)) = some (.validate, true, false) := by decide
/-- V-E4's code, R122: the rejected CLAIM of V-T2 shows code 3. -/
theorem test_pinUnavailable_code : (nextOf (exec .claim ⟨_, { at' .claim k1 with driven := [nopPorts false] }⟩)).map
    (fun t => (t.errCode, t.errInfo)) = some (3#2, 0#16) := by decide
/-- V-T2. -/
theorem test_claim_unavailable : (nextOf (exec .claim ⟨_, { at' .claim k1 with driven := [nopPorts false] }⟩)).map
    (fun t => (t.st, t.perr, t.pinfo, t.pinClaim)) = some (.rejected, .pinUnavailable, 0#16, false) := by decide
/-- V-T3. -/
theorem test_validate_valid : (nextOf (exec .validate ⟨_, at' .validate k1⟩)).map
    (fun t => (t.st, t.pinOut, t.cnt.toNat)) = some (.agcHigh, true, 399) := by decide
/-- V-T5: the lowest index is reported. -/
theorem test_validate_two_invalid : (nextOf (exec .validate ⟨_, at' .validate k7⟩)).map
    (fun t => (t.st, t.perr, t.pinfo, t.pinClaim)) = some (.release, .invalidSymbol, 0x0032#16, true) := by decide
/-- V-T7. -/
theorem test_agcHigh_exit : (nextOf (exec .agcHigh ⟨_, at' .agcHigh k1⟩)).map
    (fun t => (t.st, t.pinOut, t.cnt.toNat, t.rep)) = some (.agcLow, false, 2209, 0#3) := by decide
/-- V-T8. -/
theorem test_agcLow_exit_one : (nextOf (exec .agcLow ⟨_, at' .agcLow k1⟩)).map
    (fun t => (t.st, t.pinOut, t.cnt.toNat, t.idx)) = some (.symHigh, true, 1189, 0#5) := by decide
/-- V-T9. -/
theorem test_agcLow_exit_zero : (nextOf (exec .agcLow ⟨_, at' .agcLow k2⟩)).map
    (fun t => (t.st, t.cnt.toNat)) = some (.symHigh, 334) := by decide
/-- V-T10. -/
theorem test_symHigh_exit_one : (nextOf (exec .symHigh ⟨_, at' .symHigh k1⟩)).map
    (fun t => (t.st, t.pinOut, t.cnt.toNat)) = some (.symLow, false, 334) := by decide
/-- V-T11. -/
theorem test_symHigh_exit_zero : (nextOf (exec .symHigh ⟨_, { at' .symHigh k1 with idx := 23 }⟩)).map
    (fun t => (t.st, t.cnt.toNat)) = some (.symLow, 1189) := by decide
/-- V-T12. -/
theorem test_symLow_next_symbol : (nextOf (exec .symLow ⟨_, at' .symLow k1⟩)).map
    (fun t => (t.st, t.idx, t.pinOut, t.cnt.toNat)) = some (.symHigh, 1#5, true, 334) := by decide
/-- V-T13 with `rep` 4, the last repetition but one. -/
theorem test_symLow_next_repetition : (nextOf (exec .symLow ⟨_, { at' .symLow k1 with idx := 24, rep := 4 }⟩)).map
    (fun t => (t.st, t.rep, t.idx, t.cnt.toNat)) = some (.agcLow, 5#3, 0#5, 2209) := by decide
/-- V-T14, reached by a step. -/
theorem test_symLow_last : (nextOf (step ⟨_, { at' .symLow k1 with idx := 24, rep := 5 }⟩)).map
    (fun t => (t.st, t.pinOut, t.pinClaim, t.rep)) = some (.release, false, true, 5#3) := by decide
/-- V-T15. -/
theorem test_release_done : (nextOf (exec .release ⟨_, at' .release k1⟩)).map
    (fun t => (t.st, t.pinClaim, t.doneFlag)) = some (.done, false, true) := by decide
/-- V-T16. -/
theorem test_release_rejected : (nextOf (exec .release ⟨_, { at' .release k4 with perr := .invalidSymbol }⟩)).map
    (fun t => (t.st, t.pinClaim, t.errCode)) = some (.rejected, false, 2#2) := by decide
/-- V-T19. -/
theorem test_done_rests : nextOf (exec .done ⟨_, at' .done k1⟩) = some (at' .done k1) := by decide
/-- V-C10: a valid TRANSMIT from REJECTED clears the error. -/
theorem test_rejected_accepts : (nextOf (exec .rejected ⟨_, { at' .rejected k6 with perr := .invalidCommandLength, pinfo := 2, driven := [transmitPorts true ⟨25, k2⟩] }⟩)).map
    (fun t => (t.st, t.perr, t.pinfo, t.err, t.busy)) = some (.claim, .none, 0#16, false, true) := by decide
/-- V-T17. -/
theorem test_illegal_10 : (nextOf (exec (.illegalState1011 0) ⟨_, { at' (.illegal 0) k1 with
    pinClaim := true, pinOut := true, perr := .pinUnavailable, rep := 3 }⟩)).map
    (fun t => (t.st, t.pinOut, t.pinClaim, t.perr, t.rep)) = some (.idle, false, false, .none, 3#3) := by decide
/-- V-T18: a start is ignored with the code 15 in `st`. -/
theorem test_illegal_15_ignores_start : (nextOf (step ⟨_, { at' (.illegal 5) k1 with driven := [transmitPorts true ⟨25, k2⟩] }⟩)).map
    (fun t => (t.st, t.cmdQ)) = some (.idle, k1) := by decide

/-- V-P1, R35: the constant and the mirror outputs. -/
theorem test_outputs : (at' .rejected k1).outputs.pinId = 0b010111#6 ∧ (at' .rejected k1).outputs.stateO = 9#4 ∧
    (at' .rejected k1).outputs.err = true := by decide
/-- R68, K6: the string `01`. -/
theorem test_text_command : commandOfText w16 [0x30#8, 0x31#8] = ⟨2#16, k6⟩ := by decide

/-- Log entry 18: a RESET_AT whose cycle is past has no answer, one whose cycle is next resets in it. -/
theorem test_resetAt_past : runLine 1 (.resetAt 0) ⟨true, 1, State.reset⟩ = none ∧
    (runLine 1 (.resetAt 1) ⟨true, 1, machine (at' .claim k1)⟩).map (fun r => (r.since, r.machine.pte.st)) =
      some (2, .idle) := by decide

/-! ## Witnesses: states and operands that meet the hypotheses of the statements, clause by clause -/

/-- A state of rest in which the command `c` is presented, the arbiter answers `avail` in CLAIM, and nothing resets. -/
def presenting (st : FsmState) (c : Command w16) (avail : Bool) (n : Nat) : Pte buildD :=
  { at' st k6 with driven := transmitPorts avail c :: List.replicate n (nopPorts avail) }

theorem presenting_noReset (st : FsmState) (c : Command w16) (avail : Bool) {m n : Nat} (h : m ≤ n + 1) :
    (presenting st c avail n).NoResetFor m := by
  apply Pte.NoResetFor.of_driven
  · simpa [presenting] using h
  · intro p hp
    simp only [presenting, List.mem_cons, List.mem_replicate] at hp
    rcases hp with rfl | ⟨_, rfl⟩ <;> rfl

/-- A state with NOP cycles ahead. -/
def quiet (s : Pte buildD) (n : Nat) : Pte buildD := { s with driven := List.replicate n (nopPorts true) }

theorem quiet_noReset (s : Pte buildD) {m n : Nat} (h : m ≤ n) : (quiet s n).NoResetFor m := by
  apply Pte.NoResetFor.of_driven
  · simpa [quiet] using h
  · intro p hp
    simp only [quiet, List.mem_replicate] at hp
    rw [hp.2]; rfl

/-- The clauses of the invariant but the last are decided; the last is empty outside a pulse. -/
theorem inv_of_no_pulse {s : Pte buildD} (h1 : s.st.isIllegal = false) (h2 : s.PinsMatch) (h3 : s.InRange)
    (h4 : s.CountersFresh) (h5 : s.CommandValid) (h6 : s.ErrorMatches) (h7 : s.pulseCount = none) : s.Inv :=
  ⟨h1, h2, h3, h4, h5, h6, fun n h => by rw [h7] at h; cases h⟩

/-- REJECTED after a wrong length, as R86's example has it. -/
def afterLengthError : Pte buildD := { at' .rejected k6 with perr := .invalidCommandLength, pinfo := 2 }

theorem witness_inv_idle : (at' .idle k1).Inv := by apply inv_of_no_pulse <;> decide
theorem witness_inv_claim : (at' .claim k1).Inv := by apply inv_of_no_pulse <;> decide
theorem witness_inv_validate : (at' .validate k4).Inv := by apply inv_of_no_pulse <;> decide
theorem witness_inv_done : { at' .done k1 with rep := 5, idx := 24 }.Inv := by apply inv_of_no_pulse <;> decide
theorem witness_inv_rejected : afterLengthError.Inv := by apply inv_of_no_pulse <;> decide
theorem witness_inv_release : { at' .release k4 with perr := .invalidSymbol, pinfo := 0x78 }.Inv := by
  apply inv_of_no_pulse <;> decide
theorem witness_inv_agcHigh : { at' .agcHigh k1 with cnt := 399 }.Inv :=
  ⟨by decide, by decide, by decide, by decide, by decide, by decide, fun n h => by
    have hp : { at' .agcHigh k1 with cnt := 399 }.pulseCount = some 400 := by decide
    rw [hp] at h; cases h; decide⟩
theorem witness_inv_agcLow_end : (at' .agcLow k1).Inv :=
  ⟨by decide, by decide, by decide, by decide, by decide, by decide, fun n h => by
    have hp : (at' .agcLow k1).pulseCount = some 2210 := by decide
    rw [hp] at h; cases h; decide⟩
theorem witness_inv_symHigh_end : (at' .symHigh k1).Inv :=
  ⟨by decide, by decide, by decide, by decide, by decide, by decide, fun n h => by
    have hp : (at' .symHigh k1).pulseCount = some 1190 := by decide
    rw [hp] at h; cases h; decide⟩
theorem witness_inv_last_symLow : { at' .symLow k1 with rep := 5, idx := 24, cnt := 334 }.Inv :=
  ⟨by decide, by decide, by decide, by decide, by decide, by decide, fun n h => by
    have hp : { at' .symLow k1 with rep := 5, idx := 24, cnt := 334 }.pulseCount = some 335 := by decide
    rw [hp] at h; cases h; decide⟩

theorem valid_k1 : ValidCommand k1 := by unfold ValidCommand; decide
theorem valid_k2 : ValidCommand k2 := by unfold ValidCommand; decide
theorem invalid_k4 : ¬ValidCommand k4 := fun h => h 12 (by decide) (by decide)

theorem witness_SymbolByteDecoding : dec 0x30#8 = some .zero ∧ dec 0x31#8 = some .one ∧
    (0x2F#8 ≠ 0x30#8 ∧ 0x2F#8 ≠ 0x31#8) ∧ (0xB1#8 ≠ 0x30#8 ∧ 0xB1#8 ≠ 0x31#8) := by decide

theorem witness_EveryWordSelectsItsRow : (Code.ctrl (W := ⟨9, by decide⟩) 3 0 0).format ≠ .sym ∧
    (Code.state (W := ⟨9, by decide⟩) 15).format ≠ .sym := by decide

theorem witness_DecodeAfterEncode : WellFormed w16 (.symInvalid 0xFF#8) = true ∧
    WellFormed w16 (.transmit 0xFFFF k7) = true ∧
    WellFormed w16 (.illegalState1215 3#2) = true := by decide

theorem witness_EncodeAfterDecode : (0 : BitVec 2) ≠ 1 ∧ (2 : BitVec 2) ≠ 1 ∧ (3 : BitVec 2) ≠ 1 := by decide

/-- The last bit of the last byte. -/
theorem witness_CommandByteOrder : 24 < 25 ∧ 7 < 8 ∧ (cmdByte k1 24).getLsbD 5 = true := by decide

theorem witness_TextCommandLayout : ([0x30#8] : List Byte).length < 2 ^ 16 ∧
    2 ^ 16 ≤ (List.replicate 65536 0x30#8).length ∧ (State.reset.build.lenW = w16 ∧ 2 ^ w16.val ≤ 65536) :=
  ⟨by decide, (List.length_replicate (n := 65536)).ge, rfl, by decide⟩

theorem witness_StepRunsFetchedOperation : exec (at' .idle k1).fetch ⟨_, at' .idle k1⟩ = .next (machine (at' .idle k1)) := rfl

theorem witness_StepDispatchesOnStateCode :
    ((at' .done k1).ports.rst = false ∧ exec (decode (W := w16) (.state (at' .done k1).st.code)) ⟨_, at' .done k1⟩ =
      .next (machine (at' .done k1))) ∧
    ∃ t, { at' .agcLow k1 with driven := [resetPorts true] }.ports.rst = true ∧
      exec (.reset false) ⟨_, { at' .agcLow k1 with driven := [resetPorts true] }⟩ = .next (machine t) :=
  ⟨⟨rfl, rfl⟩, _, rfl, rfl⟩

/-- Each clause, SYM_LOW at its boundary index 23. -/
theorem witness_SymbolRowsAgreeWithStateSteps :
    ((at' .agcLow k1).st = .agcLow ∧ (at' .agcLow k1).cnt = 0 ∧
      (nextOf (exec (decode (W := w16) (.sym ((at' .agcLow k1).symByte 0))) ⟨_, at' .agcLow k1⟩)).isSome) ∧
    ((at' .symHigh k1).cnt = 0 ∧
      (nextOf (exec (decode (W := w16) (.sym ((at' .symHigh k1).symByte 0))) ⟨_, at' .symHigh k1⟩)).isSome) ∧
    (({ at' .symLow k1 with idx := 23 }).cnt = 0 ∧ ({ at' .symLow k1 with idx := 23 }).idx.toNat < 24 ∧
      (nextOf (exec (decode (W := w16) (.sym (({ at' .symLow k1 with idx := 23 }).symByte 24))) ⟨_, { at' .symLow k1 with idx := 23 }⟩)).isSome) ∧
    (firstInvalid (at' .validate k4).cmdQ = some 0x78#8 ∧
      (nextOf (exec (decode (W := w16) (.sym 0x78#8)) ⟨_, at' .validate k4⟩)).isSome) := by decide

theorem witness_StatusFlagsFollowState : (at' (.illegal 0) k1).st.isIllegal = true ∧
    (at' .claim k1).busy = true ∧ (at' .release k1).busy = true ∧ (at' .done k1).doneFlag = true ∧
    (at' .rejected k1).err = true := by decide

theorem witness_ErrorOutputsShownInRejected : (afterLengthError.Inv ∧ afterLengthError.st = .rejected ∧
      afterLengthError.perr = .invalidCommandLength) ∧ (at' .release k1).st ≠ .rejected ∧
    { at' .rejected k4 with perr := .invalidSymbol, pinfo := 0x78 }.st = .rejected ∧
    { at' .rejected k4 with perr := .pinUnavailable }.perr = .pinUnavailable :=
  ⟨⟨witness_inv_rejected, rfl, rfl⟩, by decide, rfl, rfl⟩

/-- From each state of rest, with the legal length, a neighbour of it and the largest length. -/
theorem witness_TransmitAcceptedLatchesCommand :
    ((at' .idle k1).st = .idle ∧ (at' .done k1).st = .done ∧ (at' .rejected k1).st = .rejected) ∧
    (nextOf (exec (.transmit 25 k1) ⟨_, at' .idle k1⟩)).isSome ∧ (nextOf (exec (.transmit 24 k1) ⟨_, at' .done k1⟩)).isSome ∧
    25 < 2 ^ w16.val ∧ (24 ≠ 25 ∧ 24 < 2 ^ w16.val) ∧ (65535 ≠ 25 ∧ 65535 < 2 ^ w16.val) := by decide

theorem witness_TransmitIgnoredWhileBusy : (at' .claim k1).st.acceptsStart = false ∧
    (at' .release k1).st.acceptsStart = false ∧ (at' (.illegal 0) k1).st.acceptsStart = false ∧
    (at' (.illegal 5) k1).st.acceptsStart = false := by decide

theorem witness_NopTakesStateStep : (at' .rejected k1).st = .rejected ∧
    (at' (.illegal 2) k1).st.acceptsStart = false := by decide

theorem witness_ResetRestoresRegisters : (at' .idle k1).Inv ∧ (at' .idle k1).st = .idle ∧
    ∃ t, exec (.reset true) ⟨_, at' .idle k1⟩ = .next (machine t) := ⟨witness_inv_idle, rfl, _, rfl⟩

/-- A cycle with RESET and a TRANSMIT of another command. -/
def resetWithStart : Ports w16 := { transmitPorts false ⟨25, k1⟩ with rst := true }

theorem witness_ResetReadsNoOtherInput : (resetPorts true : Ports w16).rst = true ∧ resetWithStart.rst = true ∧
    resetPorts true ≠ resetWithStart := by decide

/-- P2: start held for two cycles with the string `01`. -/
theorem witness_HeldStartIsRejectedEachCycle :
    let s : Pte buildD := { at' .idle 0 with driven := [transmitPorts true ⟨2, k6⟩, transmitPorts true ⟨2, k6⟩] }
    s.st.acceptsStart = true ∧ (2 : BitVec 16) ≠ 25 ∧ 0 < 2 ∧
      ∀ j, j < 2 → (s.portsIn j).rst = false ∧ (s.portsIn j).command = some ⟨2, k6⟩ := by decide

/-- IDLE entered by reset, and by recovery. -/
theorem witness_IdleRowStep :
    (∃ t, step ⟨_, { at' .agcLow k1 with driven := [resetPorts true] }⟩ = .next (machine t) ∧ t.st = .idle) ∧
    (∃ t, step ⟨_, at' (.illegal 5) k1⟩ = .next (machine t) ∧ t.st = .idle) ∧
    (at' .agcLow k1).st ≠ .idle ∧ (at' (.illegal 5) k1).st ≠ .idle ∧ (at' .idle k1).st = .idle :=
  ⟨⟨_, rfl, rfl⟩, ⟨_, rfl, rfl⟩, by decide, by decide, rfl⟩

theorem witness_DoneRowStep : { at' .done k1 with rep := 5, idx := 24 }.Inv ∧
    { at' .done k1 with rep := 5, idx := 24 }.st = .done := ⟨witness_inv_done, rfl⟩

theorem witness_RejectedRowStep : afterLengthError.Inv ∧ afterLengthError.st = .rejected :=
  ⟨witness_inv_rejected, rfl⟩

/-- A NOP, a TRANSMIT of a legal length and a RESET in REJECTED. -/
theorem witness_RejectedHeldUntilTransmitOrReset :
    (afterLengthError.st = .rejected ∧ afterLengthError.ports.rst = false ∧ afterLengthError.ports.start = false) ∧
    (∃ t, step ⟨_, { afterLengthError with driven := [transmitPorts true ⟨25, k1⟩] }⟩ = .next (machine t) ∧ t.st ≠ .rejected ∧
      { afterLengthError with driven := [transmitPorts true ⟨25, k1⟩] }.ports.cmdLen = 25) ∧
    ∃ t, step ⟨_, { afterLengthError with driven := [resetPorts true] }⟩ = .next (machine t) ∧ t.st ≠ .rejected ∧
      { afterLengthError with driven := [resetPorts true] }.ports.rst = true :=
  ⟨by decide, ⟨_, rfl, by decide, rfl⟩, _, rfl, by decide, rfl⟩

theorem witness_ClaimRowStep :
    (at' .claim k1).ports.pinAvail = true ∧
    ({ at' .claim k1 with driven := [nopPorts false] }.ports.pinAvail = false ∧
      { at' .claim k1 with driven := [nopPorts false] }.pinClaim = false) ∧
    ({ at' .claim k1 with driven := [nopPorts false], pinClaim := true }.ports.pinAvail = false ∧
      { at' .claim k1 with driven := [nopPorts false], pinClaim := true }.pinClaim = true) ∧
    (at' .claim k1).Inv ∧ (∃ t, step ⟨_, at' .claim k1⟩ = .next (machine t)) :=
  ⟨rfl, ⟨rfl, rfl⟩, ⟨rfl, rfl⟩, witness_inv_claim, _, rfl⟩

/-- K4 has its invalid byte at index 12, K7 at the least index 0. -/
theorem witness_ValidateRowStep :
    (dec (cmdByte k4 12) = none ∧ ∀ i, i < 12 → dec (cmdByte k4 i) ≠ none) ∧
    (dec (cmdByte k7 0) = none ∧ ∀ i, i < 0 → dec (cmdByte k7 i) ≠ none) ∧
    ValidCommand (at' .validate k1).cmdQ ∧ (at' .validate k4).Inv ∧ (at' .validate k4).pinClaim = true ∧
    { at' .validate k4 with pinClaim := false }.pinClaim = false :=
  ⟨by decide, by decide, valid_k1, witness_inv_validate, rfl, rfl⟩

theorem witness_AgcHighRowStep :
    { at' .agcHigh k1 with cnt := 399 }.cnt ≠ 0 ∧ (at' .agcHigh k1).cnt = 0 ∧
    (∃ t, step ⟨_, at' .validate k1⟩ = .next (machine t) ∧ t.st = .agcHigh ∧ (at' .validate k1).st ≠ .agcHigh) ∧
    ((quiet { at' .agcHigh k1 with cnt := 399 } 400).st = .agcHigh ∧
      (quiet { at' .agcHigh k1 with cnt := 399 } 400).NoResetFor 400) :=
  ⟨by decide, rfl, ⟨_, rfl, by decide, by decide⟩, rfl, quiet_noReset _ le_rfl⟩

theorem witness_AgcLowRowStep :
    ({ at' .agcLow k1 with cnt := 1 }.cnt ≠ 0 ∧ (at' .agcLow k1).cnt = 0 ∧ cmdByte (at' .agcLow k1).cmdQ 0 = 0x31 ∧
      cmdByte (at' .agcLow k2).cmdQ 0 = 0x30 ∧ dec (cmdByte (at' .agcLow k7).cmdQ 0) = none ∧
      (at' .agcLow k7).pinClaim = true ∧ { at' .agcLow k7 with pinClaim := false }.pinClaim = false) ∧
    (∃ t, step ⟨_, at' .agcHigh k1⟩ = .next (machine t) ∧ t.st = .agcLow) ∧
    (∃ t, step ⟨_, { at' .symLow k1 with idx := 24 }⟩ = .next (machine t) ∧ t.st = .agcLow) ∧
    (quiet { at' .agcLow k1 with cnt := 2209 } 2210).NoResetFor 2210 :=
  ⟨by decide, ⟨_, rfl, rfl⟩, ⟨_, rfl, rfl⟩, quiet_noReset _ le_rfl⟩

/-- The last index, 24, and the first beyond it. -/
theorem witness_SymHighRowStep :
    (({ at' .symHigh k1 with idx := 24 }).idx.toNat < 25 ∧
      cmdByte ({ at' .symHigh k1 with idx := 24 }).cmdQ 24 = 0x31 ∧
      cmdByte (at' .symHigh k2).cmdQ 0 = 0x30 ∧ (at' .symHigh k1).cnt = 0 ∧
      ({ at' .symHigh k1 with idx := 25 }).cnt = 0 ∧ dec (cmdByte (at' .symHigh k7).cmdQ 0) = none) ∧
    ((at' .agcLow k1).Inv ∧ ∃ t, step ⟨_, at' .agcLow k1⟩ = .next (machine t) ∧ t.st = .symHigh ∧ (at' .agcLow k1).st ≠ .symHigh) ∧
    (quiet { at' .symHigh k1 with cnt := 1189 } 1190).NoResetFor 1190 :=
  ⟨by decide, ⟨witness_inv_agcLow_end, _, rfl, by decide, by decide⟩, quiet_noReset _ le_rfl⟩

/-- Indices 0, 23, 24, 25 and 31, repetitions 4, 5, 6 and 7. -/
theorem witness_SymLowRowStep :
    (({ at' .symLow k1 with idx := 23 }).idx.toNat < 24 ∧
      cmdByte ({ at' .symLow k1 with idx := 23 }).cmdQ 24 = 0x31 ∧ cmdByte (at' .symLow k1).cmdQ 1 = 0x30 ∧
      dec (cmdByte ({ at' .symLow k4 with idx := 11 }).cmdQ 12) = none ∧
      24 < ({ at' .symLow k1 with idx := 25 }).idx.toNat ∧ 24 < ({ at' .symLow k1 with idx := 31 }).idx.toNat ∧
      ({ at' .symLow k1 with idx := 24, rep := 4 }).idx = 24 ∧ (4 : BitVec 3) ≠ 5 ∧ (4 : BitVec 3) ≠ 7 ∧
      (6 : BitVec 3) ≠ 5 ∧ (6 : BitVec 3) ≠ 7 ∧ ({ at' .symLow k1 with idx := 24, rep := 7 }).rep = 7 ∧
      ({ at' .symLow k1 with idx := 24, rep := 5 }).rep = 5 ∧ (at' .symLow k1).cnt = 0 ∧
      (at' .symLow k4).pinClaim = true ∧ { at' .symLow k4 with pinClaim := false }.pinClaim = false) ∧
    ((at' .symHigh k1).Inv ∧ ∃ t, step ⟨_, at' .symHigh k1⟩ = .next (machine t) ∧ t.st = .symLow ∧ (at' .symHigh k1).st ≠ .symLow) ∧
    (quiet { at' .symLow k1 with cnt := 334 } 335).NoResetFor 335 :=
  ⟨by decide, ⟨witness_inv_symHigh_end, _, rfl, by decide, by decide⟩, quiet_noReset _ le_rfl⟩

theorem witness_ReleaseRowStep :
    (at' .release k1).perr = .none ∧ { at' .release k4 with perr := .invalidSymbol }.perr ≠ .none ∧
    (∃ t, step ⟨_, at' .release k1⟩ = .next (machine t)) ∧
    ∃ t, step ⟨_, at' .validate k4⟩ = .next (machine t) ∧ t.st = .release ∧ (at' .validate k4).Inv :=
  ⟨rfl, by decide, ⟨_, rfl⟩, _, rfl, by decide, witness_inv_validate⟩

theorem witness_IllegalCodesRecover : (at' (.illegal 0) k1).st.isIllegal = true ∧
    (at' (.illegal 0) k1).ports.rst = false ∧ (at' (.illegal 5) k1).st.isIllegal = true := by decide

theorem witness_SymRowEffects :
    (at' .agcLow k1).symbolUse = .highPhase ∧ ({ at' .symLow k1 with idx := 23 }).symbolUse = .highPhase ∧
    (at' .symHigh k1).symbolUse = .lowPhase ∧ (at' .validate k1).symbolUse = .check ∧
    ({ at' .symLow k1 with idx := 24 }).symbolUse = .unread ∧
    ({ at' .symHigh k1 with cnt := 1 }).symbolUse = .unread ∧ (at' .idle k1).symbolUse = .unread ∧
    (at' .validate k1).pinClaim = true ∧ { at' .validate k1 with pinClaim := false }.symbolUse = .check ∧
    (0x32#8 ≠ 0x30#8 ∧ 0x32#8 ≠ 0x31#8) := by decide

theorem witness_StepKeepsInvariant : { at' .symLow k1 with rep := 5, idx := 24, cnt := 334 }.Inv ∧
    ∃ t, step ⟨_, { at' .symLow k1 with rep := 5, idx := 24, cnt := 334 }⟩ = .next (machine t) :=
  ⟨witness_inv_last_symLow, _, rfl⟩

/-- A run from reset with inputs that reaches CLAIM, for the statements on every state reset reaches. -/
theorem witness_ReachableStates :
    ∃ t : Pte build2, Sys2Proof.core.run 1 ⟨_, { Pte.reset build2 with driven := [transmitPorts true ⟨25, k1⟩] }⟩ =
      .next ⟨_, t⟩ ∧ t.st = .claim := ⟨_, rfl, rfl⟩

theorem witness_HoldCounterWidth : 2210 * (⟨1, by decide⟩ : Ticks).val - 1 < 2 ^ 12 := by decide

theorem witness_CountersNeverWrap : { at' .agcHigh k1 with cnt := 399 }.Inv ∧
    ∃ t, step ⟨_, { at' .agcHigh k1 with cnt := 399 }⟩ = .next (machine t) := ⟨witness_inv_agcHigh, _, rfl⟩

theorem witness_CommandImmutableWhileBusy :
    (∃ t, step ⟨_, at' .symLow k1⟩ = .next (machine t) ∧ (at' .symLow k1).busy = true) ∧
    ∃ t, step ⟨_, presenting .done ⟨25, k1⟩ true 0⟩ = .next (machine t) ∧ t.cmdQ ≠ (presenting .done ⟨25, k1⟩ true 0).cmdQ :=
  ⟨⟨_, rfl, by decide⟩, _, rfl, by decide⟩

/-- A NOP cycle with the pin available, and a TRANSMIT cycle with it not. -/
def nopCycle : Ports w16 := nopPorts true
def otherCycle (avail : Bool) : Ports w16 := transmitPorts avail ⟨2, k6⟩

/-- Outside CLAIM and the states of rest every input but `rst` may differ; in CLAIM all but `pin_avail`. -/
theorem witness_InputsReadOnlyWhereStated :
    nopCycle.rst = false ∧ (otherCycle false).rst = false ∧
    ((at' .symLow k1).st = .claim → nopCycle.pinAvail = (otherCycle false).pinAvail) ∧
    ((at' .symLow k1).st.acceptsStart = true → nopCycle.command = (otherCycle false).command) ∧
    ((at' .claim k1).st = .claim ∧ nopCycle.pinAvail = (otherCycle true).pinAvail) ∧
    ((at' .done k1).st.acceptsStart = true ∧ nopCycle.command = (nopPorts false : Ports w16).command) := by decide

/-- Each line of the table: R108's conditions, each met by some state. -/
theorem witness_NextStateTable :
    ((at' .claim k1).PinsMatch ∧ (at' .validate k4).PinsMatch ∧ (at' .symLow k1).PinsMatch ∧
      (at' (.illegal 3) k1).PinsMatch ∧ (presenting .done ⟨25, k1⟩ true 0).PinsMatch ∧
      (presenting .done ⟨25, k1⟩ true 0).ports.start = true ∧ (presenting .done ⟨25, k1⟩ true 0).ports.cmdLen = 25 ∧
      (presenting .idle ⟨24, k1⟩ true 0).ports.cmdLen ≠ 25 ∧ (at' .idle k1).ports.start = false ∧
      (at' .claim k1).ports.pinAvail = true ∧ { at' .claim k1 with driven := [nopPorts false] }.ports.pinAvail = false ∧
      { at' .symLow k1 with driven := [resetPorts true] }.ports.rst = true ∧
      { at' .symLow k1 with idx := 24, rep := 5 }.idx = 24) ∧
    ((at' .agcLow k7).PinsMatch ∧ dec (cmdByte k7 0) = none ∧ { at' .symLow k4 with idx := 11 }.PinsMatch ∧
      dec (cmdByte k4 12) = none ∧ { at' .symLow k1 with idx := 25 }.PinsMatch ∧
      24 < { at' .symLow k1 with idx := 25 }.idx.toNat) ∧
    ¬ValidCommand (at' .validate k4).cmdQ ∧ ValidCommand (at' .validate k1).cmdQ ∧
    ∃ t, step ⟨_, at' .symLow k1⟩ = .next (machine t) :=
  ⟨by decide, by decide, invalid_k4, valid_k1, _, rfl⟩

theorem witness_InEncodingCheckIsDead : { at' .agcHigh k1 with cnt := 399 }.Inv ∧
    { at' .agcHigh k1 with cnt := 399 }.st.isPulse = true ∧
    ∃ t, step ⟨_, { at' .agcHigh k1 with cnt := 399 }⟩ = .next (machine t) := ⟨witness_inv_agcHigh, rfl, _, rfl⟩

theorem witness_PinClaimedAndReleasedOnce :
    (∃ t, step ⟨_, at' .claim k1⟩ = .next (machine t) ∧ (at' .claim k1).pinClaim = false ∧ t.pinClaim = true) ∧
    ∃ t, step ⟨_, at' .release k1⟩ = .next (machine t) ∧ (at' .release k1).pinClaim = true ∧ t.pinClaim = false :=
  ⟨⟨_, rfl, rfl, rfl⟩, _, rfl, rfl, rfl⟩

theorem witness_ResetDuringRelease : (at' .release k1).st = .release ∧
    (∃ t, exec .release ⟨_, at' .release k1⟩ = .next (machine t)) ∧ ∃ u, exec (.reset false) ⟨_, at' .release k1⟩ = .next (machine u) :=
  ⟨rfl, ⟨_, rfl⟩, _, rfl⟩

/-- The longest hold, and one of a single remaining cycle. -/
theorem witness_HoldLastsExactly :
    ((at' .symHigh k1).Inv ∧ ∃ t, step ⟨_, at' .symHigh k1⟩ = .next (machine t) ∧ t.st.isPulse = true ∧ t.st ≠ (at' .symHigh k1).st) ∧
    ((quiet { at' .agcLow k1 with cnt := 2209 } 2210).st.isPulse = true ∧
      (quiet { at' .agcLow k1 with cnt := 2209 } 2210).NoResetFor 2210) ∧
    (quiet (at' .symLow k1) 1).st.isPulse = true ∧ (quiet (at' .symLow k1) 1).NoResetFor 1 :=
  ⟨⟨witness_inv_symHigh_end, _, rfl, by decide, by decide⟩, ⟨rfl, quiet_noReset _ le_rfl⟩, rfl, quiet_noReset _ le_rfl⟩

theorem witness_SymbolPeriodLasts :
    (quiet { at' .symHigh k1 with idx := 24, cnt := 1189 } 1525).st = .symHigh ∧
    (quiet { at' .symHigh k1 with idx := 24, cnt := 1189 } 1525).idx.toNat < 25 ∧
    dec (cmdByte k1 24) = some .one ∧ 1189 + 1 = hiDur ⟨1, by decide⟩ .one ∧
    (quiet { at' .symHigh k1 with idx := 24, cnt := 1189 } 1525).NoResetFor 1525 :=
  ⟨rfl, by decide, by decide, by decide, quiet_noReset _ le_rfl⟩

theorem witness_RepetitionLasts :
    (quiet { at' .agcLow k1 with cnt := 2209, rep := 4 } 40335).st = .agcLow ∧ 2209 + 1 = 2210 * 1 ∧
    ValidCommand (quiet { at' .agcLow k1 with cnt := 2209, rep := 4 } 40335).cmdQ ∧ (4 : BitVec 3).toNat < 5 ∧
    (quiet { at' .agcLow k1 with cnt := 2209, rep := 4 } 40335).NoResetFor 40335 :=
  ⟨rfl, rfl, valid_k1, by decide, quiet_noReset _ le_rfl⟩

/-- Program P1's inputs; the hypotheses of the statements on a valid transmission, the last repetition among them. -/
theorem witness_ValidTransmission :
    (presenting .idle ⟨25, k1⟩ true 242414).st.acceptsStart = true ∧
    (presenting .idle ⟨25, k1⟩ true 242414).Presents ⟨25, k1⟩ ∧ ValidCommand k1 ∧
    ((presenting .idle ⟨25, k1⟩ true 242414).portsIn 1).pinAvail = true ∧ 5 < 6 ∧
    (presenting .idle ⟨25, k1⟩ true 242414).NoResetFor (4 + 242410 * 1) ∧
    (presenting .idle ⟨25, k1⟩ true 242414).NoResetFor (3 + 400 * 1 + 5 * (40335 * 1)) :=
  ⟨rfl, ⟨rfl, rfl⟩, valid_k1, rfl, by decide, presenting_noReset _ _ _ (by decide),
    presenting_noReset _ _ _ (by decide)⟩

theorem witness_FrameHas307Pulses : ValidCommand k1 ∧ ValidCommand k2 := ⟨valid_k1, valid_k2⟩

/-- V-E1, V-E4 and V-E5: a wrong length, an unavailable pin, an invalid byte. -/
theorem witness_Rejections :
    ((presenting .done ⟨26, k4⟩ false 4).PinsMatch ∧ (presenting .done ⟨26, k4⟩ false 4).Presents ⟨26, k4⟩ ∧
      (26 : BitVec 16) ≠ 25) ∧
    ((presenting .idle ⟨25, k4⟩ false 4).NoResetFor 2 ∧
      ((presenting .idle ⟨25, k4⟩ false 4).portsIn 1).pinAvail = false) ∧
    ((presenting .rejected ⟨25, k4⟩ true 4).NoResetFor 4 ∧ (presenting .rejected ⟨25, k4⟩ true 4).PinsMatch ∧
      ((presenting .rejected ⟨25, k4⟩ true 4).portsIn 1).pinAvail = true ∧
      dec (cmdByte k4 12) = none ∧ (∀ i, i < 12 → dec (cmdByte k4 i) ≠ none) ∧ ¬ValidCommand k4) :=
  ⟨⟨by decide, ⟨rfl, rfl⟩, by decide⟩, ⟨presenting_noReset _ _ _ (by decide), rfl⟩,
    presenting_noReset _ _ _ (by decide), by decide, rfl, by decide, by decide, invalid_k4⟩

/-- With the two witnesses above, each clause of the statement on whole transmissions: a state of rest that presents the
command, with matching pins. -/
theorem witness_PinClaimedAndReleasedOnce_transmissions :
    ∀ r ∈ [(FsmState.idle, k1, true, 25#16), (.rejected, k4, true, 25#16), (.idle, k4, false, 25#16), (.done, k4, false, 26#16)],
      (presenting r.1 ⟨r.2.2.2, r.2.1⟩ r.2.2.1 4).PinsMatch ∧
      (presenting r.1 ⟨r.2.2.2, r.2.1⟩ r.2.2.1 4).st.acceptsStart = true ∧
      (presenting r.1 ⟨r.2.2.2, r.2.1⟩ r.2.2.1 4).Presents ⟨r.2.2.2, r.2.1⟩ ∧
      ((presenting r.1 ⟨r.2.2.2, r.2.1⟩ r.2.2.1 4).portsIn 1).pinAvail = r.2.2.1 := by decide

/-- DONE is reached by a step from RELEASE; an error is shown after V-C3's single step from reset. -/
theorem witness_ErrorShownWithPinReleased :
    ∃ t : Pte build2, Sys2Proof.core.run 1 ⟨_, { Pte.reset build2 with driven := [transmitPorts true ⟨2, k6⟩] }⟩ =
      .next ⟨_, t⟩ ∧ t.err = true := ⟨_, rfl, rfl⟩

end Sys2Proof.Tests
end

section
/-! PROOFS. The scope family (00_scope.md): the width of the hold counter (R12). -/

namespace Sys2Proof.Machine

/-- `clog2 n` is the least width that holds `n - 1`: the property R12 gives `CNT_W`. -/
theorem clog2_le_iff (n w : Nat) : Config.clog2 n ≤ w ↔ n - 1 < 2 ^ w := by
  unfold Config.clog2
  split
  case isTrue h =>
    have h0 : n - 1 = 0 := by omega
    simp [h0]
  case isFalse h =>
    have h0 : n - 1 ≠ 0 := by omega
    rw [Nat.add_one_le_iff, Nat.log2_lt h0]

/-- Settles O43: the largest count is AGC low's, and `clog2` is the least width that holds it less one. -/
theorem holdCounterWidth : Obligations.HoldCounterWidth := by
  refine ⟨fun T => ⟨holdCount_pred_lt T .agcL, fun k => ?_, fun w h => ?_⟩, by decide⟩
  · exact Nat.sub_le_sub_right (holdCount_le T k) 1
  · exact (clog2_le_iff (Config.nAgcLow T) w).mpr h

end Sys2Proof.Machine
end

section
/-! PROOFS. The state family (10_state.md): what the outputs and the status flags read (R33, R34, R37), and that in every
state reached from reset the pins are what the STATE format says of `st` (R29, R30, R110). -/

namespace Sys2Proof

/-! The columns of the STATE format, as the states they name (R33, R60). -/

theorem FsmState.isBusy_iff (st : FsmState) : st.isBusy = true ↔ st = .claim ∨ st = .validate ∨ st = .agcHigh ∨
    st = .agcLow ∨ st = .symHigh ∨ st = .symLow ∨ st = .release := by
  cases st <;> simp [FsmState.isBusy]

theorem FsmState.claims_iff (st : FsmState) : st.claims = true ↔ st = .validate ∨ st = .agcHigh ∨ st = .agcLow ∨
    st = .symHigh ∨ st = .symLow ∨ st = .release := by
  cases st <;> simp [FsmState.claims]

theorem FsmState.isHigh_iff (st : FsmState) : st.isHigh = true ↔ st = .agcHigh ∨ st = .symHigh := by
  cases st <;> simp [FsmState.isHigh]

/-- The level is LOW in every state that does not claim the pin (R30). -/
theorem FsmState.isHigh_of_not_claims {st : FsmState} (h : st.claims = false) : st.isHigh = false := by
  cases st <;> simp_all [FsmState.claims, FsmState.isHigh]

theorem FsmState.not_claims_of_acceptsStart {st : FsmState} (h : st.acceptsStart = true) : st.claims = false := by
  cases st <;> simp_all [FsmState.claims, FsmState.acceptsStart]

theorem FsmState.isIllegal_iff (st : FsmState) : st.isIllegal = true ↔ ∃ k, st = .illegal k := by
  cases st <;> simp [FsmState.isIllegal]

/-- Only the absence of an error has code 0 (R122). -/
theorem ErrorCode.code_eq_zero_iff (e : ErrorCode) : e.code = 0 ↔ e = .none := by
  cases e <;> decide

namespace Machine

variable {B : Build}

/-! The outputs -/

/-- No output depends on an input (R37). -/
@[simp] theorem Pte.outputs_drive (p : Ports B.lenW) (s : Pte B) : (s.drive p).outputs = s.outputs := rfl

theorem Pte.busy_iff (s : Pte B) : s.busy = true ↔ s.st = .claim ∨ s.st = .validate ∨ s.st = .agcHigh ∨
    s.st = .agcLow ∨ s.st = .symHigh ∨ s.st = .symLow ∨ s.st = .release := s.st.isBusy_iff

theorem Pte.doneFlag_iff (s : Pte B) : s.doneFlag = true ↔ s.st = .done := by simp [Pte.doneFlag]

theorem Pte.err_iff (s : Pte B) : s.err = true ↔ s.st = .rejected := by simp [Pte.err]

/-- No status flag is shown in a state with an illegal code (R33). -/
theorem Pte.flags_of_illegal {s : Pte B} (h : s.st.isIllegal = true) :
    s.busy = false ∧ s.doneFlag = false ∧ s.err = false := by
  obtain ⟨k, hk⟩ := s.st.isIllegal_iff.mp h
  simp [Pte.busy, Pte.doneFlag, Pte.err, FsmState.isBusy, hk]

theorem Pte.errCode_of_rejected {s : Pte B} (h : s.st = .rejected) : s.errCode = s.perr.code := if_pos h
theorem Pte.errInfo_of_rejected {s : Pte B} (h : s.st = .rejected) : s.errInfo = s.pinfo := if_pos h
theorem Pte.errCode_of_not_rejected {s : Pte B} (h : s.st ≠ .rejected) : s.errCode = 0 := if_neg h
theorem Pte.errInfo_of_not_rejected {s : Pte B} (h : s.st ≠ .rejected) : s.errInfo = 0 := if_neg h

/-- In REJECTED an error is held, so its code is not 0 (R34). -/
theorem Pte.Inv.errCode_ne_zero {s : Pte B} (h : s.Inv) (hst : s.st = .rejected) : s.errCode ≠ 0 := by
  obtain ⟨-, hheld, -, -⟩ := h.error
  rw [Pte.errCode_of_rejected hst, Ne, ErrorCode.code_eq_zero_iff]
  exact hheld hst

/-- Settles O14: the outputs are assembled from the registers alone. -/
theorem outputsReadRegistersOnly : Obligations.OutputsReadRegistersOnly :=
  fun _ s => ⟨rfl, fun p => s.outputs_drive p⟩

/-- Settles O15: each flag is 1 in the states it names, and no state is named by two flags. -/
theorem statusFlagsFollowState : Obligations.StatusFlagsFollowState := by
  refine ⟨fun B s => ⟨s.busy_iff, s.doneFlag_iff, s.err_iff, Pte.flags_of_illegal, ?_, ?_, ?_, fun p => ?_⟩,
    fun B => ⟨rfl, rfl, rfl⟩⟩
  · rintro ⟨hb, hd⟩
    simp [s.busy_iff, s.doneFlag_iff.mp hd] at hb
  · rintro ⟨hb, he⟩
    simp [s.busy_iff, s.err_iff.mp he] at hb
  · rintro ⟨hd, he⟩
    simp [s.doneFlag_iff, s.err_iff.mp he] at hd
  · have h := s.outputs_drive p
    exact ⟨congrArg Outputs.busy h, congrArg Outputs.doneFlag h, congrArg Outputs.err h⟩

/-- Settles O16: the error outputs are `perr` and `pinfo` in REJECTED, where the invariant says that an error is held. -/
theorem errorOutputsShownInRejected : Obligations.ErrorOutputsShownInRejected := by
  refine ⟨⟨rfl, rfl, rfl, rfl⟩, fun B s =>
    ⟨fun h => ⟨Pte.errCode_of_rejected h, Pte.errInfo_of_rejected h⟩, fun h => ?_,
    fun h => ⟨Pte.errCode_of_not_rejected h, Pte.errInfo_of_not_rejected h⟩, Pte.Inv.errCode_ne_zero, fun p => ?_⟩,
    fun B => ⟨rfl, rfl⟩⟩
  · rw [Pte.errCode_of_rejected h]
    refine ⟨?_, ?_, ?_⟩ <;> (intro he; rw [he]; rfl)
  · have h := s.outputs_drive p
    exact ⟨congrArg Outputs.errCode h, congrArg Outputs.errInfo h⟩

/-! The pins. `PinsMatch` is inductive on its own: each update that enters a state sets the pins as that state has them,
or enters a state with the pins that were. -/

theorem Pte.PinsMatch.pinClaim_of_claims {s : Pte B} (h : s.PinsMatch) (hst : s.st.claims = true) :
    s.pinClaim = true := h.1.trans hst

/-- Both pins are 0 in a state that does not claim the pin. -/
theorem Pte.PinsMatch.pins_of_not_claims {s : Pte B} (h : s.PinsMatch) (hst : s.st.claims = false) :
    s.pinClaim = false ∧ s.pinOut = false :=
  ⟨h.1.trans hst, h.2.trans (FsmState.isHigh_of_not_claims hst)⟩

/-- Error entry goes to RELEASE with the pin claimed and to REJECTED without, LOW in both (R16). -/
theorem Pte.PinsMatch.raise {s : Pte B} (h : s.PinsMatch) (e : ErrorCode) (info : LenWord B.lenW) :
    (s.raise e info).PinsMatch := by
  unfold Pte.raise
  split
  case isTrue hc => exact ⟨hc, rfl⟩
  case isFalse hc =>
    rw [h.1, Bool.not_eq_true] at hc
    exact h.pins_of_not_claims hc

/-- An accepted TRANSMIT leaves the pin unclaimed and LOW, as CLAIM and REJECTED have it (R73). -/
theorem Pte.PinsMatch.accept {s : Pte B} (h : s.PinsMatch) (hst : s.st.acceptsStart = true) (c : Command B.lenW) :
    (s.accept c).PinsMatch := by
  obtain ⟨hclaim, hout⟩ := h.pins_of_not_claims (FsmState.not_claims_of_acceptsStart hst)
  unfold Pte.accept
  split <;> exact ⟨hclaim, hout⟩

theorem Pte.pinsMatch_beginAgcLow {s : Pte B} (h : s.pinClaim = true) : s.beginAgcLow.PinsMatch := ⟨h, rfl⟩
theorem Pte.pinsMatch_beginHigh {s : Pte B} (h : s.pinClaim = true) (b : Symbol) : (s.beginHigh b).PinsMatch :=
  ⟨h, rfl⟩
theorem Pte.pinsMatch_beginLow {s : Pte B} (h : s.pinClaim = true) (b : Symbol) : (s.beginLow b).PinsMatch :=
  ⟨h, rfl⟩
theorem Pte.pinsMatch_beginLowUnstated {s : Pte B} (h : s.pinClaim = true) (c : Byte) :
    (s.beginLowUnstated c).PinsMatch := ⟨h, rfl⟩

theorem claimStep_keeps_pins {s : Pte B} (h : s.PinsMatch) : (claimStep s).PinsMatch := by
  unfold claimStep
  split
  · exact ⟨rfl, rfl⟩
  · exact h.raise _ _

theorem validateStep_keeps_pins {s : Pte B} (h : s.PinsMatch) (hc : s.pinClaim = true) :
    (validateStep s).PinsMatch := by
  unfold validateStep
  split
  · exact h.raise _ _
  · exact ⟨hc, rfl⟩

theorem agcHighStep_keeps_pins {s : Pte B} (h : s.PinsMatch) (hc : s.pinClaim = true) :
    (agcHighStep s).PinsMatch := by
  unfold agcHighStep
  split
  · exact h
  · exact Pte.pinsMatch_beginAgcLow hc

theorem agcLowStep_keeps_pins {s : Pte B} (h : s.PinsMatch) (hc : s.pinClaim = true) :
    (agcLowStep s).PinsMatch := by
  have hidx : { s with idx := 0 }.PinsMatch := h
  unfold agcLowStep
  split
  · exact h
  · split
    next => exact hidx.raise _ _
    next b _ => exact Pte.pinsMatch_beginHigh hc b

theorem symHighStep_keeps_pins {s : Pte B} (h : s.PinsMatch) (hc : s.pinClaim = true) :
    (symHighStep s).PinsMatch := by
  unfold symHighStep
  split
  · exact h
  · split
    next b _ => exact Pte.pinsMatch_beginLow hc b
    next => exact Pte.pinsMatch_beginLowUnstated hc _

theorem symLowStep_keeps_pins {s : Pte B} (h : s.PinsMatch) (hc : s.pinClaim = true) :
    (symLowStep s).PinsMatch := by
  have hidx : { s with idx := s.idxSucc }.PinsMatch := h
  unfold symLowStep
  split
  · exact h
  · split
    · split
      next => exact hidx.raise _ _
      next b _ => exact Pte.pinsMatch_beginHigh hc b
    · split
      · exact Pte.pinsMatch_beginAgcLow hc
      · exact ⟨hc, rfl⟩

theorem releaseStep_pinsMatch (s : Pte B) : (releaseStep s).PinsMatch := by
  unfold releaseStep
  split <;> exact ⟨rfl, rfl⟩

theorem stateStep_keeps_pins_of_accepts {s : Pte B} (h : s.PinsMatch) (hst : s.st.acceptsStart = true)
    (cmd : Option (Command B.lenW)) : (stateStep cmd s).PinsMatch := by
  cases cmd with
  | none => rw [stateStep_of_rest hst]; exact h
  | some c => rw [stateStep_of_accepts hst]; exact h.accept hst c

/-- Every state step keeps the pins as the STATE format says of `st` (R110). -/
theorem stateStep_keeps_pins {s : Pte B} (h : s.PinsMatch) (cmd : Option (Command B.lenW)) :
    (stateStep cmd s).PinsMatch := by
  have hclaim : s.st.claims = true → s.pinClaim = true := h.pinClaim_of_claims
  cases hst : s.st <;> rw [hst] at hclaim
  case idle | done | rejected => exact stateStep_keeps_pins_of_accepts h (by rw [hst]; rfl) cmd
  all_goals simp only [stateStep, hst]
  case claim => exact claimStep_keeps_pins h
  case validate => exact validateStep_keeps_pins h (hclaim rfl)
  case agcHigh => exact agcHighStep_keeps_pins h (hclaim rfl)
  case agcLow => exact agcLowStep_keeps_pins h (hclaim rfl)
  case symHigh => exact symHighStep_keeps_pins h (hclaim rfl)
  case symLow => exact symLowStep_keeps_pins h (hclaim rfl)
  case release => exact releaseStep_pinsMatch s
  case illegal k => split <;> exact ⟨rfl, rfl⟩

/-- Every edge does, whatever the inputs. -/
theorem Pte.PinsMatch.edge {s : Pte B} (h : s.PinsMatch) : s.edge.PinsMatch := by
  show s.regsAfter.PinsMatch
  unfold Pte.regsAfter
  split
  · exact ⟨rfl, rfl⟩
  · exact stateStep_keeps_pins h _

/-- What an edge keeps holds after any run. -/
theorem of_core_run {P : Pte B → Prop} (hedge : ∀ s, P s → P s.edge) {n : Nat} {s t : Pte B} (h : P s)
    (hrun : Sys2Proof.core.run n ⟨B, s⟩ = .next ⟨B, t⟩) : P t := by
  rw [core_run_eq] at hrun
  cases hrun
  exact Function.Iterate.rec P h hedge n

/-- Settles O41: reset sets the pins as IDLE has them, every edge keeps them so, and the columns of the STATE format are
the states the statement names. -/
theorem reachablePinsFollowState : Obligations.ReachablePinsFollowState := by
  intro B inputs n t hrun
  have hreset : { Pte.reset B with driven := inputs }.PinsMatch := ⟨rfl, rfl⟩
  have ht : t.PinsMatch := of_core_run (P := Pte.PinsMatch) (fun _ => Pte.PinsMatch.edge) hreset hrun
  obtain ⟨hclaim, hout⟩ := ht
  rw [hclaim, hout]
  exact ⟨t.st.claims_iff, FsmState.isHigh_of_not_claims, t.st.isHigh_iff⟩

end Machine
end Sys2Proof
end

section
/-! PROOFS. The encoding family (30_encoding.md), decoding: what each word of CTRL and SYM decodes to (R56, R58), which
row of the opcode table a word selects (R71), and that TRANSMIT acts as NOP outside the states of rest (R57). -/

namespace Sys2Proof

theorem decode_sym_of_zero {W : LenWidth} {c : Byte} (h : dec c = some .zero) :
    decode (W := W) (.sym c) = .sym0 := by simp [decode, decodeSym, h]
theorem decode_sym_of_one {W : LenWidth} {c : Byte} (h : dec c = some .one) :
    decode (W := W) (.sym c) = .sym1 := by simp [decode, decodeSym, h]
theorem decode_sym_of_invalid {W : LenWidth} {c : Byte} (h : dec c = none) :
    decode (W := W) (.sym c) = .symInvalid c := by simp [decode, decodeSym, h]

/-- Settles O2: the three cases of `dec`, each followed by the row that `decode` gives it. -/
theorem symbolByteDecoding : Obligations.SymbolByteDecoding := by
  refine fun W c => ⟨fun h => ?_, fun h => ?_, fun h0 h1 => ?_⟩
  · have hd := (dec_eq_zero_iff c).mpr h
    exact ⟨hd, decode_sym_of_zero hd⟩
  · have hd := (dec_eq_one_iff c).mpr h
    exact ⟨hd, decode_sym_of_one hd⟩
  · have hd := (dec_eq_none_iff c).mpr ⟨h0, h1⟩
    exact ⟨hd, decode_sym_of_invalid hd⟩

/-! The opcode table. A row reads only the format and the table bits of a word, so which rows match is a finite question
for CTRL and STATE, whatever `LEN_W` and the CMD operand are. -/

/-- Whether a row matches a word of the format `f` with the table bits `bits`. -/
def OpcodeRow.matchesBits (f : Format) (bits : BitVec 8) (r : OpcodeRow) : Bool :=
  r.format == f && (bits &&& r.mask) == r.pattern

theorem OpcodeRow.covers_eq_matchesBits {W : LenWidth} (c : Code W) :
    (fun r : OpcodeRow => r.covers c) = OpcodeRow.matchesBits c.format c.tableBits := rfl

/-- The mnemonic of the first row that matches (R70). -/
def selectedMnemonic (f : Format) (bits : BitVec 8) : Option String :=
  (opcodeRows.find? (OpcodeRow.matchesBits f bits)).map OpcodeRow.mnemonic

/-- How many rows match. -/
def matchingRows (f : Format) (bits : BitVec 8) : Nat :=
  (opcodeRows.filter (OpcodeRow.matchesBits f bits)).length

theorem mnemonic_decodeCtrl {W : LenWidth} (w : BitVec 2) (len : LenWord W) (data : CmdData) :
    (decodeCtrl w len data).mnemonic = if w = 0 then "NOP" else if w = 1 then "TRANSMIT" else "RESET" := by
  unfold decodeCtrl
  split
  case h_4 h0 h1 _ => exact (if_neg h0 |>.trans (if_neg h1)).symm
  all_goals rfl

theorem selectedMnemonic_ctrl : ∀ w : BitVec 2, selectedMnemonic .ctrl (w.setWidth 8) =
    some (if w = 0 then "NOP" else if w = 1 then "TRANSMIT" else "RESET") := by decide

theorem selectedMnemonic_state : ∀ c : BitVec 4,
    selectedMnemonic .state (c.setWidth 8) = some (decodeState c).mnemonic := by decide

/-- The open row SYM_INVALID stands after the two symbols, so it is selected by what neither of them matches (R70). -/
theorem selectedMnemonic_sym (c : Byte) : selectedMnemonic .sym c = some (decodeSym c).mnemonic := by
  by_cases h0 : c = 0x30#8
  · rw [h0]; decide
  by_cases h1 : c = 0x31#8
  · rw [h1]; decide
  have hinv : decodeSym c = .symInvalid c := by simp [decodeSym, (dec_eq_none_iff c).mpr ⟨h0, h1⟩]
  have hfmt : (Format.ctrl == Format.sym) = false := rfl
  have hall : c &&& 0xFF#8 = c := BitVec.and_allOnes
  simp [hinv, Instr.mnemonic, selectedMnemonic, opcodeRows, ctrlSymRows, OpcodeRow.matchesBits, List.find?, hfmt, hall,
    beq_eq_false_iff_ne.mpr h0, beq_eq_false_iff_ne.mpr h1]

theorem matchingRows_ctrl : ∀ w : BitVec 2, matchingRows .ctrl (w.setWidth 8) = 1 := by decide
theorem matchingRows_state : ∀ c : BitVec 4, matchingRows .state (c.setWidth 8) = 1 := by decide

/-- Every word selects the row of the instruction it decodes to (R71). -/
theorem selectedMnemonic_eq_decode {W : LenWidth} (c : Code W) :
    selectedMnemonic c.format c.tableBits = some (decode c).mnemonic := by
  cases c with
  | ctrl w len data =>
    show selectedMnemonic .ctrl (w.setWidth 8) = some (decodeCtrl w len data).mnemonic
    rw [selectedMnemonic_ctrl, mnemonic_decodeCtrl]
  | sym b => exact selectedMnemonic_sym b
  | state code => exact selectedMnemonic_state code

/-- Settles O4: the format and the table bits of a word decide which rows match it. -/
theorem everyWordSelectsItsRow : Obligations.EveryWordSelectsItsRow := by
  refine ⟨by decide, by decide, by decide, by decide, fun W c => ?_, fun W c hc => ?_⟩ <;>
    rw [OpcodeRow.covers_eq_matchesBits]
  · exact selectedMnemonic_eq_decode c
  · cases c with
    | ctrl w len data => exact matchingRows_ctrl w
    | sym b => exact absurd rfl hc
    | state code => exact matchingRows_state code

namespace Machine

variable {B : Build}

theorem Ports.ctrlWord_bit_one {W : LenWidth} (p : Ports W) : p.ctrlWord.getLsbD 1 = p.rst := by
  cases h : p.rst <;> cases h' : p.start <;> simp [Ports.ctrlWord, h, h']

theorem Ports.ctrlWord_bit_zero {W : LenWidth} (p : Ports W) : p.ctrlWord.getLsbD 0 = p.start := by
  cases h : p.rst <;> cases h' : p.start <;> simp [Ports.ctrlWord, h, h']

/-- Settles O1: the four CTRL words are the four arms of the decoder, and `exec` of RESET does not read `start`. -/
theorem ctrlWordsSelectOperations : Obligations.CtrlWordsSelectOperations :=
  ⟨fun _ _ _ => ⟨rfl, rfl, rfl, rfl⟩, fun _ p => ⟨p.ctrlWord_bit_one, p.ctrlWord_bit_zero⟩,
    fun _ _ => rfl, fun _ => rfl⟩

/-! No state step writes `cmd_q`; only an accepted TRANSMIT does (R22). -/

@[simp] theorem Pte.raiseInvalidSymbol_cmdQ (c : Byte) (s : Pte B) : (s.raiseInvalidSymbol c).cmdQ = s.cmdQ :=
  s.raise_cmdQ _ _
@[simp] theorem claimStep_cmdQ (s : Pte B) : (claimStep s).cmdQ = s.cmdQ := by
  unfold claimStep; split <;> simp
@[simp] theorem validateStep_cmdQ (s : Pte B) : (validateStep s).cmdQ = s.cmdQ := by
  unfold validateStep; split <;> simp
@[simp] theorem agcHighStep_cmdQ (s : Pte B) : (agcHighStep s).cmdQ = s.cmdQ := by
  unfold agcHighStep; split <;> simp
@[simp] theorem agcLowStep_cmdQ (s : Pte B) : (agcLowStep s).cmdQ = s.cmdQ := by
  unfold agcLowStep; split <;> [skip; split] <;> simp
@[simp] theorem symHighStep_cmdQ (s : Pte B) : (symHighStep s).cmdQ = s.cmdQ := by
  unfold symHighStep; split <;> [skip; split] <;> simp
@[simp] theorem symLowStep_cmdQ (s : Pte B) : (symLowStep s).cmdQ = s.cmdQ := by
  unfold symLowStep; split <;> [skip; (split <;> split)] <;> simp
@[simp] theorem releaseStep_cmdQ (s : Pte B) : (releaseStep s).cmdQ = s.cmdQ := rfl

/-- Under NOP no state writes `cmd_q` (R22, R75). -/
@[simp] theorem stateStep_none_cmdQ (s : Pte B) : (stateStep none s).cmdQ = s.cmdQ := by
  unfold stateStep
  split
  case h_11 => split <;> exact s.recover_cmdQ
  all_goals simp [idleStep, doneStep, rejectedStep, restStep]

/-- Settles O18: outside the states of rest the state step does not read the command, and NOP's writes no `cmd_q`. -/
theorem transmitIgnoredWhileBusy : Obligations.TransmitIgnoredWhileBusy := by
  intro B s len data h
  refine ⟨?_, stateStep none s, rfl, stateStep_none_cmdQ s⟩
  simp [exec, execTransmit, execNop, stateStep_of_ignores h (some _)]

end Machine
end Sys2Proof
end

section
/-! PROOFS. The encoding family (30_encoding.md), hold counts (R62): a step that enters a pulse state loads `cnt` with the
pulse's hold count less one, and the pulse then lasts until `cnt` has counted down to 0. -/

namespace Sys2Proof.Machine

variable {B : Build}

/-! What the state step of each pulse state does when the hold is over: everything that can follow a pulse. -/

theorem agcHighStep_of_expired {s : Pte B} (hc : s.cnt = 0) : agcHighStep s = { s.beginAgcLow with rep := 0 } := by
  simp [agcHighStep, hc]

theorem agcLowStep_of_expired {s : Pte B} (hc : s.cnt = 0) :
    (∃ b, dec (cmdByte s.cmdQ 0) = some b ∧ agcLowStep s = { s with idx := 0 }.beginHigh b) ∨
    (dec (cmdByte s.cmdQ 0) = none ∧
      agcLowStep s = { s with idx := 0 }.raiseInvalidSymbol (cmdByte s.cmdQ 0)) := by
  have hb : s.symByte 0 = cmdByte s.cmdQ 0 := Pte.symByte_of_lt (by decide)
  cases hd : dec (cmdByte s.cmdQ 0) with
  | some b => exact .inl ⟨b, rfl, by simp [agcLowStep, hc, hb, hd]⟩
  | none => exact .inr ⟨rfl, by simp [agcLowStep, hc, hb, hd]⟩

theorem symHighStep_of_expired {s : Pte B} (hc : s.cnt = 0) :
    (∃ b, dec (s.symByte s.idx.toNat) = some b ∧ symHighStep s = s.beginLow b) ∨
    (dec (s.symByte s.idx.toNat) = none ∧ symHighStep s = s.beginLowUnstated (s.symByte s.idx.toNat)) := by
  cases hd : dec (s.symByte s.idx.toNat) with
  | some b => exact .inl ⟨b, rfl, by simp [symHighStep, hc, hd]⟩
  | none => exact .inr ⟨rfl, by simp [symHighStep, hc, hd]⟩

theorem symLowStep_of_expired {s : Pte B} (hc : s.cnt = 0) :
    (∃ b, s.idx ≠ 24#5 ∧ dec (s.symByte (s.idx.toNat + 1)) = some b ∧
      symLowStep s = { s with idx := s.idxSucc }.beginHigh b) ∨
    (s.idx ≠ 24#5 ∧ dec (s.symByte (s.idx.toNat + 1)) = none ∧
      symLowStep s = { s with idx := s.idxSucc }.raiseInvalidSymbol (s.symByte (s.idx.toNat + 1))) ∨
    (s.idx = 24#5 ∧ s.rep ≠ 5#3 ∧ symLowStep s = { s.beginAgcLow with rep := s.repSucc, idx := 0 }) ∨
    (s.idx = 24#5 ∧ s.rep = 5#3 ∧ symLowStep s = (s.setLevel false).goto .release) := by
  by_cases hi : s.idx = 24#5
  · by_cases hr : s.rep = 5#3
    · exact .inr (.inr (.inr ⟨hi, hr, by simp [symLowStep, hc, hi, hr]⟩))
    · exact .inr (.inr (.inl ⟨hi, hr, by simp [symLowStep, hc, hi, hr]⟩))
  · cases hd : dec (s.symByte (s.idx.toNat + 1)) with
    | some b => exact .inl ⟨b, hi, rfl, by simp [symLowStep, hc, hi, hd]⟩
    | none => exact .inr (.inl ⟨hi, rfl, by simp [symLowStep, hc, hi, hd]⟩)

/-! The edges that do not begin a pulse. -/

theorem Pte.edge_of_reset {s : Pte B} (h : s.ports.rst = true) : s.edge = s.resetRegs.tick := by
  simp [Pte.edge, Pte.regsAfter, h]

/-- Error entry goes to RELEASE or REJECTED (R16), neither of which is a pulse. -/
theorem Pte.raise_not_isPulse (s : Pte B) (e : ErrorCode) (info : LenWord B.lenW) :
    (s.raise e info).st.isPulse = false := by
  rw [Pte.raise_st]; split <;> rfl

@[simp] theorem Pte.raiseInvalidSymbol_not_isPulse (s : Pte B) (c : Byte) :
    (s.raiseInvalidSymbol c).st.isPulse = false := s.raise_not_isPulse _ _

/-- A state of rest goes to CLAIM or REJECTED, if anywhere (R73, R84). -/
theorem stateStep_not_isPulse_of_accepts {s : Pte B} (h : s.st.acceptsStart = true) (cmd : Option (Command B.lenW)) :
    (stateStep cmd s).st.isPulse = false := by
  cases cmd with
  | none =>
    rw [stateStep_of_rest h]
    cases hst : s.st <;> simp_all [FsmState.acceptsStart, FsmState.isPulse]
  | some c =>
    rw [stateStep_of_accepts h, Pte.accept_st]
    split <;> rfl

theorem claimStep_not_isPulse (s : Pte B) : (claimStep s).st.isPulse = false := by
  unfold claimStep
  split
  · rfl
  · exact s.raise_not_isPulse _ _

theorem releaseStep_not_isPulse (s : Pte B) : (releaseStep s).st.isPulse = false := by
  simp only [releaseStep, Pte.goto_st]
  split <;> rfl

/-! Entering a pulse state -/

/-- What `cnt` holds after a load is one less than the hold count. -/
theorem toNat_loaded_add_one (T : Ticks) (k : PulseCategory) :
    (BitVec.ofNat (Config.cntW T) (holdCount T k - 1)).toNat + 1 = holdCount T k := by
  rw [BitVec.toNat_ofNat, Nat.mod_eq_of_lt (holdCount_pred_lt T k)]
  exact Nat.sub_add_cancel (holdCount_pos T k)

/-- The first cycle of a pulse: `cnt` holds the pulse's hold count less one (R62). -/
def Pte.PulseBegins (s : Pte B) : Prop := s.pulseCount = some (s.cnt.toNat + 1)

theorem Pte.pulseBegins_of_load {s : Pte B} {k : PulseCategory}
    (hn : s.pulseCount = some (holdCount B.ticksPerUs k))
    (hc : s.cnt = BitVec.ofNat _ (holdCount B.ticksPerUs k - 1)) : s.PulseBegins := by
  rw [Pte.PulseBegins, hn, hc, toNat_loaded_add_one]

theorem Pte.pulseBegins_agcHigh {s : Pte B} (hst : s.st = .agcHigh)
    (hc : s.cnt = BitVec.ofNat _ (holdCount B.ticksPerUs .agcH - 1)) : s.PulseBegins :=
  Pte.pulseBegins_of_load (by simp [Pte.pulseCount, hst]) hc

theorem Pte.pulseBegins_agcLow {s : Pte B} (hst : s.st = .agcLow)
    (hc : s.cnt = BitVec.ofNat _ (holdCount B.ticksPerUs .agcL - 1)) : s.PulseBegins :=
  Pte.pulseBegins_of_load (by simp [Pte.pulseCount, hst]) hc

theorem Pte.pulseBegins_symHigh {s : Pte B} {b : Symbol} (hst : s.st = .symHigh) (hi : s.idx.toNat < 25)
    (hd : dec (cmdByte s.cmdQ s.idx.toNat) = some b) (hc : s.cnt = BitVec.ofNat _ (hiDur B.ticksPerUs b - 1)) :
    s.PulseBegins :=
  Pte.pulseBegins_of_load (k := highCategory b) (by simp [Pte.pulseCount, hst, Pte.symByte_of_lt hi, hd, hiDur]) hc

theorem Pte.pulseBegins_symLow {s : Pte B} {b : Symbol} (hst : s.st = .symLow) (hi : s.idx.toNat < 25)
    (hd : dec (cmdByte s.cmdQ s.idx.toNat) = some b) (hc : s.cnt = BitVec.ofNat _ (loDur B.ticksPerUs b - 1)) :
    s.PulseBegins :=
  Pte.pulseBegins_of_load (k := lowCategory b) (by simp [Pte.pulseCount, hst, Pte.symByte_of_lt hi, hd, loDur]) hc

/-- VALIDATE begins the AGC-high pulse (R88). -/
theorem validateStep_begins {s : Pte B} (hp : (validateStep s).st.isPulse = true) :
    (validateStep s).tick.PulseBegins := by
  unfold validateStep at hp ⊢
  split at hp
  · simp at hp
  · exact Pte.pulseBegins_agcHigh rfl rfl

/-- The end of AGC_HIGH begins the AGC-low pulse (R89). -/
theorem agcHighStep_begins {s : Pte B} (hc : s.cnt = 0) : (agcHighStep s).tick.PulseBegins := by
  rw [agcHighStep_of_expired hc]
  exact Pte.pulseBegins_agcLow rfl rfl

/-- The end of AGC_LOW begins the HIGH phase of symbol 0 (R90). -/
theorem agcLowStep_begins {s : Pte B} (hc : s.cnt = 0) (hp : (agcLowStep s).st.isPulse = true) :
    (agcLowStep s).tick.PulseBegins := by
  obtain ⟨b, hd, hs⟩ | ⟨-, hs⟩ := agcLowStep_of_expired hc
  · rw [hs]
    exact Pte.pulseBegins_symHigh rfl (show 0 < 25 by decide) hd rfl
  · simp [hs] at hp

/-- The end of SYM_HIGH begins the LOW phase of the symbol, which is valid (R91, R104). -/
theorem symHighStep_begins {s : Pte B} (hc : s.cnt = 0) (hi : s.idx.toNat ≤ 24) (hv : ValidCommand s.cmdQ) :
    (symHighStep s).tick.PulseBegins := by
  have hlt : s.idx.toNat < 25 := by omega
  obtain ⟨b, hd, hs⟩ | ⟨hd, -⟩ := symHighStep_of_expired hc <;> rw [Pte.symByte_of_lt hlt] at hd
  · rw [hs]
    exact Pte.pulseBegins_symLow rfl hlt hd rfl
  · exact absurd hd (hv _ hlt)

/-- Below symbol 24 the index goes up by one (R109). -/
theorem Pte.toNat_idxSucc {s : Pte B} (h : s.idx.toNat < 24) : s.idxSucc.toNat = s.idx.toNat + 1 := by
  have h31 : s.idx ≠ 31#5 := by rintro e; simp [e] at h
  rw [Pte.idxSucc, if_neg h31]
  bv_omega

/-- The end of SYM_LOW begins the HIGH phase of the next symbol, or the next AGC-low pulse (R92). -/
theorem symLowStep_begins {s : Pte B} (hc : s.cnt = 0) (hi : s.idx.toNat ≤ 24)
    (hp : (symLowStep s).st.isPulse = true) : (symLowStep s).tick.PulseBegins := by
  obtain ⟨b, hne, hd, hs⟩ | ⟨-, -, hs⟩ | ⟨-, -, hs⟩ | ⟨-, -, hs⟩ := symLowStep_of_expired hc
  · have hlt : s.idx.toNat < 24 := by bv_omega
    have hidx := Pte.toNat_idxSucc hlt
    rw [Pte.symByte_of_lt (by omega), ← hidx] at hd
    rw [hs]
    exact Pte.pulseBegins_symHigh rfl (show s.idxSucc.toNat < 25 by omega) hd rfl
  · simp [hs] at hp
  · rw [hs]
    exact Pte.pulseBegins_agcLow rfl rfl
  · simp [hs, FsmState.isPulse] at hp

/-- A step that enters a pulse state enters it in the first cycle of its pulse (R62). -/
theorem Pte.Inv.edge_begins {s : Pte B} (h : s.Inv) (hp : s.edge.st.isPulse = true) (hne : s.edge.st ≠ s.st) :
    s.edge.PulseBegins := by
  obtain ⟨-, hidx, -⟩ := h.range
  have hr : s.ports.rst = false := by
    by_contra hr
    rw [Pte.edge_of_reset (by simpa using hr)] at hp
    cases hp
  have hexp : s.st.isPulse = true → s.cnt = 0 := by
    intro hpulse
    by_contra hc
    exact hne (by rw [Pte.edge_hold hr hpulse hc]; rfl)
  have hvalid : s.st.isPulse = true → ValidCommand s.cmdQ := fun hpulse =>
    (firstInvalid_eq_none_iff _).mp (h.command hpulse)
  rw [Pte.edge_of_no_reset hr] at hp ⊢
  rw [Pte.tick_st] at hp
  cases hst : s.st <;> rw [hst] at hexp hvalid
  case idle | done | rejected =>
    rw [stateStep_not_isPulse_of_accepts (by rw [hst]; rfl)] at hp
    cases hp
  all_goals simp only [stateStep, hst] at hp ⊢
  case claim => simp [claimStep_not_isPulse] at hp
  case validate => exact validateStep_begins hp
  case agcHigh => exact agcHighStep_begins (hexp rfl)
  case agcLow => exact agcLowStep_begins (hexp rfl) hp
  case symHigh => exact symHighStep_begins (hexp rfl) hidx (hvalid rfl)
  case symLow => exact symLowStep_begins (hexp rfl) hidx hp
  case release => simp [releaseStep_not_isPulse] at hp
  case illegal k => split at hp <;> cases hp

/-! Counting down -/

/-- The state `j` cycles into a hold: only `cnt` and the environment's fields have moved. -/
def Pte.afterHold (j : Nat) (s : Pte B) : Pte B :=
  { s with cnt := s.cnt - BitVec.ofNat _ j, driven := s.driven.drop j, cycle := s.cycle + j }

@[simp] theorem Pte.afterHold_zero (s : Pte B) : s.afterHold 0 = s := by simp [Pte.afterHold]

theorem Pte.afterHold_succ (j : Nat) (s : Pte B) : s.afterHold (j + 1) = s.holdTick.tick.afterHold j := by
  have hcnt : s.cnt - BitVec.ofNat _ (j + 1) = s.cnt - 1 - BitVec.ofNat _ j := by
    rw [Nat.add_comm, BitVec.ofNat_add]
    exact (sub_sub _ _ _).symm
  simp [Pte.afterHold, hcnt, Pte.holdTick, Pte.tick, Nat.add_assoc, Nat.add_comm 1]

/-- The hold is over after `cnt` cycles of it. -/
theorem Pte.afterHold_cnt_eq_zero (s : Pte B) : (s.afterHold s.cnt.toNat).cnt = 0 := by
  simp [Pte.afterHold]

/-- A pulse with no reset counts down for as long as `cnt` allows (R62, R116). -/
theorem Pte.edge_iterate_of_pulse {s : Pte B} {j : Nat} (hp : s.st.isPulse = true) (hr : s.NoResetFor j)
    (hj : j ≤ s.cnt.toNat) : Pte.edge^[j] s = s.afterHold j := by
  induction j generalizing s with
  | zero => simp
  | succ j ih =>
    have hc : s.cnt ≠ 0 := by rintro e; simp [e] at hj
    have he : s.edge = s.holdTick.tick := Pte.edge_hold hr.now hp hc
    have hcnt : s.holdTick.cnt.toNat = s.cnt.toNat - 1 := Pte.toNat_holdTick_cnt hc
    have hr' : s.holdTick.tick.NoResetFor j := he ▸ hr.edge
    have hj' : j ≤ s.holdTick.tick.cnt.toNat := by rw [Pte.tick_cnt]; omega
    rw [Function.iterate_succ_apply, he, ih (s := s.holdTick.tick) hp hr' hj', Pte.afterHold_succ]

theorem Pte.NoResetFor.iterate_edge {m n : Nat} {s : Pte B} (h : s.NoResetFor (n + m)) :
    (Pte.edge^[n] s).NoResetFor m := by
  induction n generalizing s with
  | zero => simpa using h
  | succ n ih =>
    have h' : s.NoResetFor (n + m + 1) := h.mono (by omega)
    exact ih h'.edge

/-- When the hold is over the next state is another (R89 to R92). -/
theorem stateStep_leaves_pulse {s : Pte B} (hp : s.st.isPulse = true) (hc : s.cnt = 0)
    (cmd : Option (Command B.lenW)) : (stateStep cmd s).st ≠ s.st := by
  have hraise : ∀ (t : Pte B) c, (t.raiseInvalidSymbol c).st ≠ s.st := by
    intro t c he
    rw [← he, Pte.raiseInvalidSymbol_not_isPulse] at hp
    cases hp
  cases hst : s.st <;> rw [hst] at hp hraise
  case agcHigh => simp [stateStep, hst, agcHighStep_of_expired hc]
  case agcLow =>
    obtain ⟨b, -, hs⟩ | ⟨-, hs⟩ := agcLowStep_of_expired hc <;> simp only [stateStep, hst, hs]
    · simp
    · exact hraise _ _
  case symHigh =>
    obtain ⟨b, -, hs⟩ | ⟨-, hs⟩ := symHighStep_of_expired hc <;> simp [stateStep, hst, hs]
  case symLow =>
    obtain ⟨b, -, -, hs⟩ | ⟨-, -, hs⟩ | ⟨-, -, hs⟩ | ⟨-, -, hs⟩ := symLowStep_of_expired hc <;>
      simp only [stateStep, hst, hs]
    · simp
    · exact hraise _ _
    · simp
    · simp
  all_goals cases hp

/-- In the cycle after the `cnt + 1` cycles of a pulse the state is another (R62). -/
theorem Pte.edge_iterate_leaves_pulse {s : Pte B} (hp : s.st.isPulse = true) (hr : s.NoResetFor (s.cnt.toNat + 1)) :
    (Pte.edge^[s.cnt.toNat + 1] s).st ≠ s.st := by
  have hlast : (Pte.edge^[s.cnt.toNat] s).ports.rst = false := hr.iterate_edge.now
  rw [Pte.edge_iterate_of_pulse hp (hr.mono (by omega)) le_rfl] at hlast
  rw [Function.iterate_succ_apply', Pte.edge_iterate_of_pulse hp (hr.mono (by omega)) le_rfl,
    Pte.edge_of_no_reset hlast]
  exact stateStep_leaves_pulse (s := s.afterHold s.cnt.toNat) hp s.afterHold_cnt_eq_zero _

/-- Settles O51: entry loads `cnt` under the invariant; the count down is by induction on the cycles. -/
theorem holdLastsExactly : Obligations.HoldLastsExactly := by
  refine ⟨fun B s t h hstep hp hne => ?_, fun B s hp hr => ⟨fun j hj => ?_, ?_⟩, holdCount_pos⟩
  · rw [step_eq_edge] at hstep
    cases hstep
    exact h.edge_begins hp hne
  · rw [core_run_eq, Pte.edge_iterate_of_pulse hp (hr.mono (by omega)) hj]
    rfl
  · exact ⟨_, core_run_eq _ s, Pte.edge_iterate_leaves_pulse hp hr⟩

end Sys2Proof.Machine
end

section
/-! PROOFS. The host-operations family (40_host_operations.md): TRANSMIT in a state of rest (R73, R77). -/

namespace Sys2Proof

/-- The states of rest (R57, R77). -/
theorem FsmState.acceptsStart_iff (st : FsmState) :
    st.acceptsStart = true ↔ st = .idle ∨ st = .done ∨ st = .rejected := by
  cases st <;> simp [FsmState.acceptsStart]

namespace Machine

variable {B : Build} {s : Pte B} {c : Command B.lenW}

/-- TRANSMIT in a state of rest is the acceptance of the command that the ports present (R73, R77). -/
theorem exec_transmit_of_accepts (h : s.st.acceptsStart = true) (len : Nat) (data : CmdData) :
    exec (.transmit len data) ⟨B, s⟩ = .next ⟨B, s.accept ⟨lenOperand B.lenW len, data⟩⟩ := by
  simp [exec, execTransmit, stateStep_of_accepts h]

/-! The two outcomes of an acceptance, by the length (R73). -/

theorem Pte.accept_of_legal (h : c.len = 25) : s.accept c =
    { s with cmdQ := c.data, rep := 0, idx := 0, cnt := 0, perr := .none, pinfo := 0, st := .claim } := if_pos h

theorem Pte.accept_of_wrong_length (h : c.len ≠ 25) : s.accept c =
    { s with cmdQ := c.data, rep := 0, idx := 0, cnt := 0, perr := .invalidCommandLength, pinfo := c.len,
             st := .rejected } := if_neg h

/-! The status outputs after it. -/

theorem Pte.accept_doneFlag : (s.accept c).doneFlag = false := by
  rw [Pte.doneFlag, Pte.accept_st]
  split <;> rfl

theorem Pte.flags_accept_of_legal (h : c.len = 25) : (s.accept c).busy = true ∧ (s.accept c).err = false := by
  rw [Pte.accept_of_legal h]
  exact ⟨rfl, rfl⟩

theorem Pte.error_accept_of_wrong_length (h : c.len ≠ 25) :
    (s.accept c).err = true ∧ (s.accept c).errCode = 1 ∧ (s.accept c).errInfo = c.len := by
  rw [Pte.accept_of_wrong_length h]
  exact ⟨rfl, rfl, rfl⟩

/-- Settles O17: a state of rest accepts the operand, which holds the length exactly because `LEN_W` bits do. -/
theorem transmitAcceptedLatchesCommand : Obligations.TransmitAcceptedLatchesCommand := by
  intro B s len data hrest hlen
  rw [exec_transmit_of_accepts (s.st.acceptsStart_iff.mpr hrest)]
  have hlegal : lenOperand B.lenW len = 25 ↔ len = 25 := lenOperand_eq_25_iff B.lenW len
  refine ⟨fun h => ?_, fun h => ?_, fun t ht => ?_⟩
  · rw [Pte.accept_of_legal (hlegal.mpr h)]
  · rw [Pte.accept_of_wrong_length (mt hlegal.mp h), lenOperand_of_lt hlen]
  · cases ht
    refine ⟨Pte.accept_doneFlag, fun h => Pte.flags_accept_of_legal (hlegal.mpr h), fun h => ?_⟩
    obtain ⟨herr, hcode, hinfo⟩ := Pte.error_accept_of_wrong_length (s := s) (c := ⟨lenOperand B.lenW len, data⟩)
      (mt hlegal.mp h)
    exact ⟨herr, hcode, by rw [hinfo, toNat_lenOperand_of_lt hlen]⟩

end Machine
end Sys2Proof
end

section
/-! PROOFS. The sequencer family (41_sequencer.md), the facts its statements share: the row that each code of `st`
selects (R83), what each row leads to (R84 to R94), and so which states can follow which (R108). -/

namespace Sys2Proof

/-- The states that one state step can lead to, `raise` with and without the pin claimed included (R16, R108). -/
def FsmState.successors : FsmState → List FsmState
  | .idle => [.idle, .claim, .rejected]
  | .claim => [.validate, .release, .rejected]
  | .validate => [.agcHigh, .release, .rejected]
  | .agcHigh => [.agcHigh, .agcLow]
  | .agcLow => [.agcLow, .symHigh, .release, .rejected]
  | .symHigh => [.symHigh, .symLow]
  | .symLow => [.symLow, .symHigh, .agcLow, .release, .rejected]
  | .release => [.done, .rejected]
  | .done => [.done, .claim, .rejected]
  | .rejected => [.rejected, .claim]
  | .illegal _ => [.idle]

/-- IDLE follows only itself and the illegal codes (R84). -/
theorem FsmState.idle_mem_successors {st : FsmState} (h : .idle ∈ st.successors) :
    st = .idle ∨ st.isIllegal = true := by
  cases st <;> simp [FsmState.successors, FsmState.isIllegal] at h ⊢

/-- AGC_HIGH follows only itself and VALIDATE (R89). -/
theorem FsmState.agcHigh_mem_successors {st : FsmState} (h : .agcHigh ∈ st.successors) :
    st = .agcHigh ∨ st = .validate := by
  cases st <;> simp [FsmState.successors] at h ⊢

/-- A pulse state follows itself, while its hold is counted. -/
theorem FsmState.mem_successors_of_isPulse {st : FsmState} (h : st.isPulse = true) : st ∈ st.successors := by
  cases st <;> simp [FsmState.isPulse, FsmState.successors] at h ⊢

namespace Machine

variable {B : Build} {s : Pte B} {cmd : Option (Command B.lenW)}

/-! The row that `st` selects (R83). The states of rest have `stateStep_of_accepts` and `stateStep_of_rest`. -/

theorem stateStep_of_claim (h : s.st = .claim) : stateStep cmd s = claimStep s := by simp [stateStep, h]
theorem stateStep_of_validate (h : s.st = .validate) : stateStep cmd s = validateStep s := by simp [stateStep, h]
theorem stateStep_of_agcHigh (h : s.st = .agcHigh) : stateStep cmd s = agcHighStep s := by simp [stateStep, h]
theorem stateStep_of_agcLow (h : s.st = .agcLow) : stateStep cmd s = agcLowStep s := by simp [stateStep, h]
theorem stateStep_of_symHigh (h : s.st = .symHigh) : stateStep cmd s = symHighStep s := by simp [stateStep, h]
theorem stateStep_of_symLow (h : s.st = .symLow) : stateStep cmd s = symLowStep s := by simp [stateStep, h]
theorem stateStep_of_release (h : s.st = .release) : stateStep cmd s = releaseStep s := by simp [stateStep, h]

/-- Both illegal rows are the recovery (R94). -/
theorem stateStep_of_illegal (h : s.st.isIllegal = true) : stateStep cmd s = s.recover := by
  obtain ⟨k, hk⟩ := s.st.isIllegal_iff.mp h
  simp [stateStep, hk, illegalStep1011, illegalStep1215]

/-! The outcomes of the rows that are no pulse. -/

theorem claimStep_of_avail (h : s.ports.pinAvail = true) : claimStep s = s.claimPin.goto .validate := if_pos h

theorem claimStep_of_unavail (h : s.ports.pinAvail = false) : claimStep s = s.raise .pinUnavailable 0 := by
  simp [claimStep, h]

theorem validateStep_of_valid (h : ValidCommand s.cmdQ) :
    validateStep s = ((s.setLevel true).loadHold (holdCount B.ticksPerUs .agcH)).goto .agcHigh := by
  simp [validateStep, (firstInvalid_eq_none_iff _).mpr h]

theorem validateStep_of_invalid (h : ¬ValidCommand s.cmdQ) : ∃ c, validateStep s = s.raiseInvalidSymbol c := by
  obtain ⟨c, hc⟩ := Option.ne_none_iff_exists'.mp (mt (firstInvalid_eq_none_iff _).mp h)
  exact ⟨c, by simp [validateStep, hc]⟩

theorem releaseStep_st : (releaseStep s).st = if s.perr = .none then .done else .rejected := rfl

theorem Pte.raiseInvalidSymbol_st (c : Byte) :
    (s.raiseInvalidSymbol c).st = if s.pinClaim then .release else .rejected := s.raise_st _ _

/-! A pulse state whose hold is not over only counts down (R89 to R92, R116). -/

theorem agcHighStep_of_counting (hc : s.cnt ≠ 0) : agcHighStep s = s.holdTick := if_pos hc
theorem agcLowStep_of_counting (hc : s.cnt ≠ 0) : agcLowStep s = s.holdTick := if_pos hc
theorem symHighStep_of_counting (hc : s.cnt ≠ 0) : symHighStep s = s.holdTick := if_pos hc
theorem symLowStep_of_counting (hc : s.cnt ≠ 0) : symLowStep s = s.holdTick := if_pos hc

theorem stateStep_of_hold (hp : s.st.isPulse = true) (hc : s.cnt ≠ 0) : stateStep cmd s = s.holdTick := by
  cases hst : s.st <;> rw [hst] at hp
  case agcHigh => rw [stateStep_of_agcHigh hst, agcHighStep_of_counting hc]
  case agcLow => rw [stateStep_of_agcLow hst, agcLowStep_of_counting hc]
  case symHigh => rw [stateStep_of_symHigh hst, symHighStep_of_counting hc]
  case symLow => rw [stateStep_of_symLow hst, symLowStep_of_counting hc]
  all_goals cases hp

/-! The states that can follow, row by row. -/

theorem Pte.raise_st_mem {l : List FsmState} (hrelease : .release ∈ l) (hrejected : .rejected ∈ l) (e : ErrorCode)
    (info : LenWord B.lenW) : (s.raise e info).st ∈ l := by
  rw [Pte.raise_st]
  split
  · exact hrelease
  · exact hrejected

theorem stateStep_st_mem_of_accepts (h : s.st.acceptsStart = true) : (stateStep cmd s).st ∈ s.st.successors := by
  cases cmd with
  | none =>
    rw [stateStep_of_rest h]
    obtain hst | hst | hst := s.st.acceptsStart_iff.mp h <;> simp [hst, FsmState.successors]
  | some c =>
    rw [stateStep_of_accepts h, Pte.accept_st]
    obtain hst | hst | hst := s.st.acceptsStart_iff.mp h <;> rw [hst] <;> split <;> decide

theorem claimStep_st_mem : (claimStep s).st ∈ FsmState.claim.successors := by
  cases ha : s.ports.pinAvail with
  | true => simp [claimStep_of_avail ha, FsmState.successors]
  | false => rw [claimStep_of_unavail ha]; exact Pte.raise_st_mem (by decide) (by decide) _ _

theorem validateStep_st_mem : (validateStep s).st ∈ FsmState.validate.successors := by
  by_cases hv : ValidCommand s.cmdQ
  · simp [validateStep_of_valid hv, FsmState.successors]
  · obtain ⟨c, hs⟩ := validateStep_of_invalid hv
    rw [hs]
    exact Pte.raise_st_mem (by decide) (by decide) _ _

theorem agcLowStep_st_mem (hc : s.cnt = 0) : (agcLowStep s).st ∈ FsmState.agcLow.successors := by
  obtain ⟨b, -, hs⟩ | ⟨-, hs⟩ := agcLowStep_of_expired hc <;> rw [hs]
  · simp [FsmState.successors]
  · exact Pte.raise_st_mem (by decide) (by decide) _ _

theorem symHighStep_st (hc : s.cnt = 0) : (symHighStep s).st = .symLow := by
  obtain ⟨b, -, hs⟩ | ⟨-, hs⟩ := symHighStep_of_expired hc <;> rw [hs] <;> rfl

theorem symLowStep_st_mem (hc : s.cnt = 0) : (symLowStep s).st ∈ FsmState.symLow.successors := by
  obtain ⟨b, -, -, hs⟩ | ⟨-, -, hs⟩ | ⟨-, -, hs⟩ | ⟨-, -, hs⟩ := symLowStep_of_expired hc <;> rw [hs]
  · simp [FsmState.successors]
  · exact Pte.raise_st_mem (by decide) (by decide) _ _
  · simp [FsmState.successors]
  · simp [FsmState.successors]

theorem releaseStep_st_mem : (releaseStep s).st ∈ FsmState.release.successors := by
  rw [releaseStep_st]
  split <;> decide

/-- Every state step stays within the graph of R108, from every state and with every input. -/
theorem stateStep_st_mem_successors : (stateStep cmd s).st ∈ s.st.successors := by
  by_cases hhold : s.st.isPulse = true ∧ s.cnt ≠ 0
  · obtain ⟨hp, hc⟩ := hhold
    rw [stateStep_of_hold hp hc]
    exact FsmState.mem_successors_of_isPulse hp
  have hexp : s.st.isPulse = true → s.cnt = 0 := fun hp => by_contra fun hc => hhold ⟨hp, hc⟩
  cases hst : s.st <;> rw [hst] at hexp
  case idle | done | rejected => exact hst ▸ stateStep_st_mem_of_accepts (by rw [hst]; rfl)
  case claim => rw [stateStep_of_claim hst]; exact claimStep_st_mem
  case validate => rw [stateStep_of_validate hst]; exact validateStep_st_mem
  case agcHigh => simp [stateStep_of_agcHigh hst, agcHighStep_of_expired (hexp rfl), FsmState.successors]
  case agcLow => rw [stateStep_of_agcLow hst]; exact agcLowStep_st_mem (hexp rfl)
  case symHigh => simp [stateStep_of_symHigh hst, symHighStep_st (hexp rfl), FsmState.successors]
  case symLow => rw [stateStep_of_symLow hst]; exact symLowStep_st_mem (hexp rfl)
  case release => rw [stateStep_of_release hst]; exact releaseStep_st_mem
  case illegal k => simp [stateStep_of_illegal (s := s) (by rw [hst]; rfl), FsmState.successors]

/-- Without a reset so does every edge. -/
theorem Pte.edge_st_mem_successors (h : s.ports.rst = false) : s.edge.st ∈ s.st.successors := by
  rw [Pte.edge_of_no_reset h]
  exact stateStep_st_mem_successors

/-- An edge into a state other than IDLE is no reset (R142). -/
theorem Pte.no_reset_of_edge_st (h : s.edge.st ≠ .idle) : s.ports.rst = false := by
  by_contra hr
  exact h (by rw [Pte.edge_of_reset (by simpa using hr)]; rfl)

end Machine
end Sys2Proof
end

section
/-! PROOFS. The sequencer family (41_sequencer.md), its statements: the next-state table (R108), and the rows of the
states of rest (R84 to R86), of AGC_HIGH (R89) and of the illegal codes (R94). -/

namespace Sys2Proof.Machine

variable {B : Build} {s : Pte B}

/-! The lines of the next-state table (R108) in which the state that follows turns on more than the row. -/

theorem stateStep_st_of_start (hrest : s.st.acceptsStart = true) (hstart : s.ports.start = true) :
    (stateStep s.ports.command s).st = if s.ports.cmdLen = 25 then .claim else .rejected := by
  simp [Ports.command, hstart, stateStep_of_accepts hrest]

theorem validateStep_st_of_invalid (hclaim : s.pinClaim = true) (h : ¬ValidCommand s.cmdQ) :
    (validateStep s).st = .release := by
  obtain ⟨c, hs⟩ := validateStep_of_invalid h
  rw [hs, Pte.raiseInvalidSymbol_st]
  exact if_pos hclaim

theorem agcLowStep_st_of_symbol (hc : s.cnt = 0) (hd : dec (cmdByte s.cmdQ 0) ≠ none) :
    (agcLowStep s).st = .symHigh := by
  obtain ⟨b, -, hs⟩ | ⟨hn, -⟩ := agcLowStep_of_expired hc
  · rw [hs, Pte.beginHigh_st]
  · exact absurd hn hd

theorem agcLowStep_st_of_invalid (hclaim : s.pinClaim = true) (hc : s.cnt = 0) (hn : dec (cmdByte s.cmdQ 0) = none) :
    (agcLowStep s).st = .release := by
  obtain ⟨b, hd, -⟩ | ⟨-, hs⟩ := agcLowStep_of_expired hc
  · cases hn.symm.trans hd
  · rw [hs, Pte.raiseInvalidSymbol_st]
    exact if_pos hclaim

/-! The end of SYM_LOW: before symbol 24 the next byte decides, at symbol 24 the repetition does (R92). -/

theorem symLowStep_st_of_symbol (hc : s.cnt = 0) (hi : s.idx ≠ 24#5)
    (hd : dec (s.symByte (s.idx.toNat + 1)) ≠ none) : (symLowStep s).st = .symHigh := by
  obtain ⟨b, -, -, hs⟩ | ⟨-, hn, -⟩ | ⟨he, -⟩ | ⟨he, -⟩ := symLowStep_of_expired hc
  · rw [hs, Pte.beginHigh_st]
  · exact absurd hn hd
  all_goals exact absurd he hi

theorem symLowStep_st_of_invalid (hclaim : s.pinClaim = true) (hc : s.cnt = 0) (hi : s.idx ≠ 24#5)
    (hn : dec (s.symByte (s.idx.toNat + 1)) = none) : (symLowStep s).st = .release := by
  obtain ⟨b, -, hd, -⟩ | ⟨-, -, hs⟩ | ⟨he, -⟩ | ⟨he, -⟩ := symLowStep_of_expired hc
  · cases hn.symm.trans hd
  · rw [hs, Pte.raiseInvalidSymbol_st]
    exact if_pos hclaim
  all_goals exact absurd he hi

theorem symLowStep_st_of_last_symbol (hc : s.cnt = 0) (hi : s.idx = 24#5) :
    (symLowStep s).st = if s.rep = 5#3 then .release else .agcLow := by
  obtain ⟨b, hne, -⟩ | ⟨hne, -⟩ | ⟨-, hr, hs⟩ | ⟨-, hr, hs⟩ := symLowStep_of_expired hc
  · exact absurd hi hne
  · exact absurd hi hne
  all_goals simp [hs, hr]

/-- Settles O47: `rst` sends every edge to IDLE; without it each line is what its row's outcome does to `st`. -/
theorem nextStateTable : Obligations.NextStateTable := by
  intro B s t hstep
  rw [step_eq_edge] at hstep
  cases hstep
  refine ⟨fun hr => by rw [Pte.edge_of_reset hr]; rfl, fun hr => ?_⟩
  rw [Pte.edge_of_no_reset hr, Pte.tick_st]
  have hclaims : s.PinsMatch → s.st.claims = true → s.pinClaim = true := Pte.PinsMatch.pinClaim_of_claims
  have hbyte : s.idx.toNat < 24 → s.symByte (s.idx.toNat + 1) = cmdByte s.cmdQ (s.idx.toNat + 1) :=
    fun h => Pte.symByte_of_lt (by omega)
  have hne : s.idx.toNat < 24 ∨ 24 < s.idx.toNat → s.idx ≠ 24#5 := by
    rintro h e
    simp [e] at h
  refine ⟨fun h hs => ?rest, fun h hs hl => ?rejected, fun h hs hl => ?accepted, fun h ha => ?claimed,
    fun h ha hp => ?unavailable, fun h hv hp => ?invalid, fun h hv => ?valid, fun h hc => ?hold, fun h hc => ?agcHigh,
    fun h hc hd => ?symbol0, fun h hc hn hp => ?invalid0, fun h hc => ?symHigh, fun h hc hi hd => ?symbol,
    fun h hc hi hn hp => ?invalidSymbol, fun h hc hi hp => ?noByte, fun h hc hi hrep => ?repetition,
    fun h hc hi hrep => ?last, fun h he => ?done, fun h he => ?error, fun h => ?illegal⟩
  case rest => simp [Ports.command, hs, stateStep_of_rest h]
  case rejected => rw [stateStep_st_of_start h hs, if_neg hl]
  case accepted => rw [stateStep_st_of_start h hs, if_pos hl]
  case claimed => rw [stateStep_of_claim h, claimStep_of_avail ha, Pte.goto_st]
  case unavailable => rw [stateStep_of_claim h, claimStep_of_unavail ha, Pte.raise_st, hp.1, h]; rfl
  case invalid => rw [stateStep_of_validate h, validateStep_st_of_invalid (hclaims hp (by rw [h]; rfl)) hv]
  case valid => rw [stateStep_of_validate h, validateStep_of_valid hv, Pte.goto_st]
  case hold => rw [stateStep_of_hold h hc, Pte.holdTick_st]
  case agcHigh => rw [stateStep_of_agcHigh h, agcHighStep_of_expired hc]; rfl
  case symbol0 => rw [stateStep_of_agcLow h, agcLowStep_st_of_symbol hc hd]
  case invalid0 => rw [stateStep_of_agcLow h, agcLowStep_st_of_invalid (hclaims hp (by rw [h]; rfl)) hc hn]
  case symHigh => rw [stateStep_of_symHigh h, symHighStep_st hc]
  case symbol => rw [stateStep_of_symLow h, symLowStep_st_of_symbol hc (hne (.inl hi)) (hbyte hi ▸ hd)]
  case invalidSymbol =>
    rw [stateStep_of_symLow h,
      symLowStep_st_of_invalid (hclaims hp (by rw [h]; rfl)) hc (hne (.inl hi)) (hbyte hi ▸ hn)]
  case noByte =>
    rw [stateStep_of_symLow h]
    by_cases hd : dec (s.symByte (s.idx.toNat + 1)) = none
    · exact .inr (symLowStep_st_of_invalid (hclaims hp (by rw [h]; rfl)) hc (hne (.inr hi)) hd)
    · exact .inl (symLowStep_st_of_symbol hc (hne (.inr hi)) hd)
  case repetition => rw [stateStep_of_symLow h]; exact (symLowStep_st_of_last_symbol hc hi).trans (if_neg hrep)
  case last => rw [stateStep_of_symLow h]; exact (symLowStep_st_of_last_symbol hc hi).trans (if_pos hrep)
  case done => rw [stateStep_of_release h, releaseStep_st, if_pos he]
  case error => rw [stateStep_of_release h, releaseStep_st, if_neg he]
  case illegal => rw [stateStep_of_illegal h, Pte.recover_st]

/-! The states of rest (R84 to R86) -/

/-- The accepted TRANSMIT of the ports where `start` is 1, and nothing where it is 0 (R84). -/
theorem restStep_eq_restResult (s : Pte B) : restStep s.ports.command s = restResult s := by
  cases hs : s.ports.start <;> simp [restStep, restResult, Ports.command, hs, Pte.accept]

/-- Settles O23: IDLE is a successor of itself and of the illegal codes only. -/
theorem idleRowStep : Obligations.IdleRowStep := by
  intro B s
  refine ⟨by rw [← restStep_eq_restResult]; rfl, fun h => ?_, fun t hstep ht hne => ?_⟩
  · simp [Pte.busy, Pte.doneFlag, Pte.err, FsmState.isBusy, h]
  · rw [step_eq_edge] at hstep
    cases hstep
    refine or_iff_not_imp_left.mpr fun hr => ?_
    have hmem : .idle ∈ s.st.successors := ht ▸ Pte.edge_st_mem_successors (by simpa using hr)
    exact (FsmState.idle_mem_successors hmem).resolve_left hne

/-- Settles O24: the pins of the invariant are those of a state that does not claim the pin. -/
theorem doneRowStep : Obligations.DoneRowStep := by
  intro B s
  refine ⟨by rw [← restStep_eq_restResult]; rfl, fun h => ⟨s.doneFlag_iff.mpr h, ?_⟩,
    fun hinv h => hinv.pins.pins_of_not_claims (by rw [h]; rfl)⟩
  exact Pte.errCode_of_not_rejected (by simp [h])

/-- Settles O25: the pins of the invariant are those of a state that does not claim the pin. -/
theorem rejectedRowStep : Obligations.RejectedRowStep := by
  intro B s
  exact ⟨by rw [← restStep_eq_restResult]; rfl,
    fun h => ⟨s.err_iff.mpr h, Pte.errCode_of_rejected h, Pte.errInfo_of_rejected h⟩,
    fun hinv h => hinv.pins.pins_of_not_claims (by rw [h]; rfl)⟩

/-! AGC_HIGH (R89) -/

theorem exec_agcHigh (s : Pte B) : exec .agcHigh ⟨B, s⟩ = .next ⟨B, agcHighStep s⟩ := rfl

/-- VALIDATE leads to AGC_HIGH only as it begins the AGC-high pulse, the pin HIGH (R88). -/
theorem validateStep_enters_agcHigh (h : (validateStep s).st = .agcHigh) :
    (validateStep s).cnt.toNat = 400 * B.ticksPerUs.val - 1 ∧ (validateStep s).pinOut = true := by
  by_cases hv : ValidCommand s.cmdQ
  · simp [validateStep_of_valid hv]
  · obtain ⟨c, hs⟩ := validateStep_of_invalid hv
    have hpulse : (s.raiseInvalidSymbol c).st.isPulse = true := by rw [← hs, h]; rfl
    simp at hpulse

/-- A pulse with no reset lasts the `cnt + 1` cycles that its hold still has, at one level (R62, R106). -/
theorem Pte.lastsFor_of_pulse (hp : s.st.isPulse = true) (hr : s.NoResetFor (s.cnt.toNat + 1)) :
    s.LastsFor (s.cnt.toNat + 1) := by
  refine ⟨fun j hj => ⟨s.afterHold j, ?_, rfl, rfl⟩, _, core_run_eq _ s, Pte.edge_iterate_leaves_pulse hp hr⟩
  rw [core_run_eq, Pte.edge_iterate_of_pulse hp (hr.mono (by omega)) (by omega)]

/-- Settles O29: AGC_HIGH is a successor of itself and of VALIDATE only, and it lasts as every pulse does. -/
theorem agcHighRowStep : Obligations.AgcHighRowStep := by
  intro B s
  refine ⟨fun hc => ?_, fun hc => ?_, fun h => s.busy_iff.mpr (by simp [h]), fun t hstep ht hne => ?_,
    fun h => Pte.lastsFor_of_pulse (by rw [h]; rfl)⟩
  · rw [exec_agcHigh, agcHighStep_of_counting hc]; rfl
  · rw [exec_agcHigh, agcHighStep_of_expired hc]; rfl
  · rw [step_eq_edge] at hstep
    cases hstep
    have hr : s.ports.rst = false := Pte.no_reset_of_edge_st (by simp [ht])
    have hmem : .agcHigh ∈ s.st.successors := ht ▸ Pte.edge_st_mem_successors hr
    have hst : s.st = .validate := (FsmState.agcHigh_mem_successors hmem).resolve_left hne
    rw [Pte.edge_of_no_reset hr, stateStep_of_validate hst] at ht ⊢
    exact ⟨hst, validateStep_enters_agcHigh ht⟩

/-! The illegal codes (R94) -/

/-- Settles O34: both rows are the recovery, which is also the step of every illegal code. -/
theorem illegalCodesRecover : Obligations.IllegalCodesRecover := by
  intro B s
  refine ⟨fun _ => rfl, fun _ => rfl, fun h hr => ?_, Pte.flags_of_illegal⟩
  rw [step_eq_edge, Pte.edge_of_no_reset hr, stateStep_of_illegal h]
  rfl

end Sys2Proof.Machine
end

section
/-! PROOFS. The pulse-output family (42_pulse_output.md): where the inputs are read (R121). Outside CLAIM a state step
commutes with driving the ports, so the edge depends on them through the command alone. -/

namespace Sys2Proof.Machine

variable {B : Build} {s : Pte B} {p : Ports B.lenW} {cmd : Option (Command B.lenW)}

/-! Driving the ports commutes with what the state steps do. -/

/-- The ports of the cycle that ends are gone after it. -/
@[simp] theorem Pte.tick_drive : (s.drive p).tick = s.tick := rfl

theorem Pte.raise_drive (e : ErrorCode) (info : LenWord B.lenW) :
    (s.drive p).raise e info = (s.raise e info).drive p := by
  unfold Pte.raise
  rw [Pte.drive_pinClaim]
  split <;> rfl

theorem Pte.accept_drive (c : Command B.lenW) : (s.drive p).accept c = (s.accept c).drive p := by
  unfold Pte.accept
  split <;> rfl

theorem restStep_drive : restStep cmd (s.drive p) = (restStep cmd s).drive p := by
  cases cmd with
  | none => rfl
  | some c => exact Pte.accept_drive c

theorem validateStep_drive : validateStep (s.drive p) = (validateStep s).drive p := by
  unfold validateStep
  rw [Pte.drive_cmdQ]
  split
  · exact Pte.raise_drive _ _
  · rfl

theorem agcHighStep_drive : agcHighStep (s.drive p) = (agcHighStep s).drive p := by
  unfold agcHighStep
  rw [Pte.drive_cnt]
  split <;> rfl

theorem Pte.symByte_drive (i : Nat) : (s.drive p).symByte i = s.symByte i := rfl

theorem agcLowStep_drive : agcLowStep (s.drive p) = (agcLowStep s).drive p := by
  unfold agcLowStep
  rw [Pte.drive_cnt, Pte.symByte_drive]
  split
  · rfl
  · split
    · exact Pte.raise_drive (s := { s with idx := 0 }) _ _
    · rfl

theorem symHighStep_drive : symHighStep (s.drive p) = (symHighStep s).drive p := by
  unfold symHighStep
  rw [Pte.drive_cnt, Pte.drive_idx, Pte.symByte_drive]
  split
  · rfl
  · split <;> rfl

theorem symLowStep_drive : symLowStep (s.drive p) = (symLowStep s).drive p := by
  unfold symLowStep
  rw [Pte.drive_cnt, Pte.drive_idx, Pte.drive_rep, Pte.symByte_drive]
  split
  · rfl
  · split
    · split
      · exact Pte.raise_drive (s := { s with idx := s.idxSucc }) _ _
      · rfl
    · split <;> rfl

/-- Outside CLAIM the state step reads no port (R87 has the one row that does). -/
theorem stateStep_drive (h : s.st ≠ .claim) : stateStep cmd (s.drive p) = (stateStep cmd s).drive p := by
  unfold stateStep
  rw [Pte.drive_st]
  cases hst : s.st with
  | claim => exact absurd hst h
  | idle | done | rejected => exact restStep_drive
  | validate => exact validateStep_drive
  | agcHigh => exact agcHighStep_drive
  | agcLow => exact agcLowStep_drive
  | symHigh => exact symHighStep_drive
  | symLow => exact symLowStep_drive
  | release => rfl
  | illegal k => dsimp only; split <;> rfl

/-! The edge under given inputs. -/

/-- Outside CLAIM only `rst`, and with it 0 only the command, are read. -/
theorem Pte.edge_drive (hr : p.rst = false) (h : s.st ≠ .claim) :
    (s.drive p).edge = (stateStep p.command s).tick := by
  rw [Pte.edge_of_no_reset (s := s.drive p) hr, Pte.ports_drive, stateStep_drive h, Pte.tick_drive]

/-- In CLAIM only `pin_avail` is read besides `rst` (R87). -/
theorem Pte.edge_drive_of_claim (hr : p.rst = false) (h : s.st = .claim) :
    (s.drive p).edge = if p.pinAvail then (s.claimPin.goto .validate).tick else (s.raise .pinUnavailable 0).tick := by
  rw [Pte.edge_of_no_reset (s := s.drive p) hr, stateStep_of_claim (s := s.drive p) h]
  cases ha : p.pinAvail with
  | true => rw [claimStep_of_avail (s := s.drive p) ha]; rfl
  | false => rw [claimStep_of_unavail (s := s.drive p) ha, Pte.raise_drive]; rfl

/-- Settles O46: CLAIM reads `pin_avail` alone, the states of rest the command alone, and every other state neither. -/
theorem inputsReadOnlyWhereStated : Obligations.InputsReadOnlyWhereStated := by
  intro B s p p' hr hr' havail hcmd
  rw [step_eq_edge, step_eq_edge]
  by_cases hclaim : s.st = .claim
  · rw [Pte.edge_drive_of_claim hr hclaim, Pte.edge_drive_of_claim hr' hclaim, havail hclaim]
  rw [Pte.edge_drive hr hclaim, Pte.edge_drive hr' hclaim]
  cases hrest : s.st.acceptsStart with
  | true => rw [hcmd hrest]
  | false => rw [stateStep_of_ignores hrest p.command, stateStep_of_ignores hrest p'.command]

end Sys2Proof.Machine
end

section
/-! PROOFS. The exceptions family (60_exceptions.md): the rejections of a command, in the order of their priority (R128),
how long an error stays (R132), and that it is shown with the pin released (R141). -/

namespace Sys2Proof.Machine

variable {B : Build} {s : Pte B} {c : Command B.lenW}

/-! The edges of a state of rest (R77, R84) -/

theorem Pte.edge_of_rest (hrest : s.st.acceptsStart = true) (hr : s.ports.rst = false) (hs : s.ports.start = false) :
    s.edge = s.tick := by
  have hcmd : s.ports.command = none := by simp [Ports.command, hs]
  rw [Pte.edge_of_no_reset hr, hcmd, stateStep_of_rest hrest]

theorem Pte.edge_of_presents (hrest : s.st.acceptsStart = true) (hc : s.Presents c) : s.edge = (s.accept c).tick := by
  obtain ⟨hr, hcmd⟩ := hc
  rw [Pte.edge_of_no_reset hr, hcmd, stateStep_of_accepts hrest]

/-- Settles O26: REJECTED is a state of rest, an accepted TRANSMIT clears the error, and so does the reset of the
registers. -/
theorem rejectedHeldUntilTransmitOrReset : Obligations.RejectedHeldUntilTransmitOrReset := by
  intro B s hst
  have hrest : s.st.acceptsStart = true := by rw [hst]; rfl
  rw [step_eq_edge]
  refine ⟨fun hr hs => ?held, fun t ht hne => ?left, fun t ht hr hs hlen => ?transmit, fun t ht hr => ?reset⟩
  case held => rw [Pte.edge_of_rest hrest hr hs]; rfl
  all_goals cases ht
  case left =>
    by_contra hidle
    simp only [not_or, Bool.not_eq_true] at hidle
    obtain ⟨hr, hs⟩ := hidle
    exact hne (by rw [Pte.edge_of_rest hrest hr hs, Pte.tick_st, hst])
  case transmit =>
    have hc : s.Presents ⟨s.ports.cmdLen, s.ports.cmdData⟩ := ⟨hr, by simp [Ports.command, hs]⟩
    rw [Pte.edge_of_presents hrest hc, Pte.accept_of_legal hlen]
    exact ⟨rfl, rfl, rfl⟩
  case reset => rw [Pte.edge_of_reset hr]; exact ⟨rfl, rfl⟩

/-- Settles O60: by O41 the pin is claimed neither in REJECTED nor in DONE, and LOW where it is not claimed. -/
theorem errorShownWithPinReleased : Obligations.ErrorShownWithPinReleased := by
  intro B inputs n t hrun hshown
  obtain ⟨hclaim, hlow, -⟩ := reachablePinsFollowState B inputs n t hrun
  have hst : t.st = .rejected ∨ t.st = .done := hshown.imp t.err_iff.mp t.doneFlag_iff.mp
  have hfree : t.pinClaim = false := by
    rw [← Bool.not_eq_true, hclaim]
    rcases hst with hst | hst <;> simp [hst]
  exact ⟨hlow hfree, hfree⟩

/-! The states of a rejected TRANSMIT, cycle by cycle (R157) -/

theorem Pte.edge_of_claim_avail (hst : s.st = .claim) (hr : s.ports.rst = false) (ha : s.ports.pinAvail = true) :
    s.edge = (s.claimPin.goto .validate).tick := by
  rw [Pte.edge_of_no_reset hr, stateStep_of_claim hst, claimStep_of_avail ha]

theorem Pte.edge_of_claim_unavail (hst : s.st = .claim) (hr : s.ports.rst = false) (ha : s.ports.pinAvail = false) :
    s.edge = (s.raise .pinUnavailable 0).tick := by
  rw [Pte.edge_of_no_reset hr, stateStep_of_claim hst, claimStep_of_unavail ha]

theorem Pte.edge_of_validate_invalid {b : Byte} (hst : s.st = .validate) (hr : s.ports.rst = false)
    (hb : firstInvalid s.cmdQ = some b) : s.edge = (s.raiseInvalidSymbol b).tick := by
  rw [Pte.edge_of_no_reset hr, stateStep_of_validate hst]
  simp [validateStep, hb]

theorem Pte.edge_of_release_error (hst : s.st = .release) (hr : s.ports.rst = false) (he : s.perr ≠ .none) :
    s.edge = (s.releasePin.goto .rejected).tick := by
  rw [Pte.edge_of_no_reset hr, stateStep_of_release hst, releaseStep, if_neg he]

/-- The command accepted `n` cycles ago: the registers of the acceptance, and the environment's fields moved on. -/
def Pte.accepted (c : Command B.lenW) (n : Nat) (s : Pte B) : Pte B :=
  { s.accept c with driven := s.driven.drop n, cycle := s.cycle + n }

section
variable (hrest : s.st.acceptsStart = true) (hc : s.Presents c)
include hrest hc

theorem Pte.edge_one_of_presents : s.edge = s.accepted c 1 := by
  rw [Pte.edge_of_presents hrest hc]
  simp [Pte.accepted, Pte.tick]

theorem Pte.edge_one_st (hlen : c.len = 25) : s.edge.st = .claim := by
  rw [Pte.edge_of_presents hrest hc, Pte.tick_st, Pte.accept_st, if_pos hlen]

theorem Pte.edge_two_of_unavail (hlen : c.len = 25) (hr : s.NoResetFor 2) (ha : (s.portsIn 1).pinAvail = false)
    (hclaim : s.pinClaim = false) :
    s.edge.edge = { s.accepted c 2 with st := .rejected, perr := .pinUnavailable, pinfo := 0 } := by
  rw [Pte.edge_of_claim_unavail (Pte.edge_one_st hrest hc hlen) hr.edge.now (by rw [Pte.ports_edge, ha]),
    Pte.edge_one_of_presents hrest hc]
  simp [Pte.accepted, Pte.tick, Pte.raise, hclaim, -List.drop_one]

theorem Pte.edge_two_of_avail (hlen : c.len = 25) (hr : s.NoResetFor 2) (ha : (s.portsIn 1).pinAvail = true) :
    s.edge.edge = { s.accepted c 2 with st := .validate, pinClaim := true, pinOut := false } := by
  rw [Pte.edge_of_claim_avail (Pte.edge_one_st hrest hc hlen) hr.edge.now (by rw [Pte.ports_edge, ha]),
    Pte.edge_one_of_presents hrest hc]
  simp [Pte.accepted, Pte.tick, Pte.claimPin, Pte.goto, -List.drop_one]

variable {b : Byte} (hlen : c.len = 25) (ha : (s.portsIn 1).pinAvail = true) (hb : firstInvalid c.data = some b)
include hlen ha hb

theorem Pte.edge_three_of_invalid (hr : s.NoResetFor 3) : s.edge.edge.edge =
    { s.accepted c 3 with st := .release, perr := .invalidSymbol, pinfo := b.setWidth B.lenW.val,
                          pinClaim := true, pinOut := false } := by
  have h2 := Pte.edge_two_of_avail hrest hc hlen (hr.mono (by decide)) ha
  rw [Pte.edge_of_validate_invalid (by rw [h2]) hr.edge.edge.now (by simpa [h2, Pte.accepted] using hb), h2]
  simp [Pte.accepted, Pte.tick, Pte.raiseInvalidSymbol, Pte.raise]

theorem Pte.edge_four_of_invalid (hr : s.NoResetFor 4) : s.edge.edge.edge.edge =
    { s.accepted c 4 with st := .rejected, perr := .invalidSymbol, pinfo := b.setWidth B.lenW.val,
                          pinClaim := false, pinOut := false } := by
  have h3 := Pte.edge_three_of_invalid hrest hc hlen ha hb (hr.mono (by decide))
  rw [Pte.edge_of_release_error (by rw [h3]) hr.edge.edge.edge.now (by simp [h3]), h3]
  simp [Pte.accepted, Pte.tick, Pte.releasePin, Pte.goto]

/-- The pin is LOW in every cycle up to REJECTED, and claimed in VALIDATE and RELEASE only (R127, R157). -/
theorem Pte.pins_until_rejected (hpins : s.PinsMatch) (hr : s.NoResetFor 4) {j : Nat} (hj : j ≤ 4) :
    (Pte.edge^[j] s).pinOut = false ∧ ((Pte.edge^[j] s).pinClaim = true ↔ j = 2 ∨ j = 3) := by
  obtain ⟨hclaim, hout⟩ := hpins.pins_of_not_claims (FsmState.not_claims_of_acceptsStart hrest)
  have h1 := Pte.edge_one_of_presents hrest hc
  have h2 := Pte.edge_two_of_avail hrest hc hlen (hr.mono (by decide)) ha
  have h3 := Pte.edge_three_of_invalid hrest hc hlen ha hb (hr.mono (by decide))
  have h4 := Pte.edge_four_of_invalid hrest hc hlen ha hb hr
  interval_cases j
  · simp [hclaim, hout]
  · simp [h1, Pte.accepted, hclaim, hout]
  · simp [h2]
  · simp [h3]
  · simp [h4]

end

/-- Settles O58: each error is raised in a cycle of its own, the length's at the acceptance, the pin's in CLAIM and the
symbol's in VALIDATE, so the earlier cycle has the priority. -/
theorem rejectionPriorityAndLatency : Obligations.RejectionPriorityAndLatency := by
  intro B s c hpins hrest hc
  obtain ⟨hclaim, hout⟩ := hpins.pins_of_not_claims (FsmState.not_claims_of_acceptsStart hrest)
  refine ⟨fun hlen => ?length, fun hlen hr ha => ?pin, fun k hlen hr ha hk hn hl => ?symbol⟩
  case length =>
    have h1 : Pte.edge^[1] s = s.accepted c 1 := Pte.edge_one_of_presents hrest hc
    rw [core_run_eq, h1, Pte.accepted, Pte.accept_of_wrong_length hlen]
  case pin =>
    have h2 : Pte.edge^[2] s = _ := Pte.edge_two_of_unavail hrest hc hlen hr ha hclaim
    rw [core_run_eq, h2, Pte.accepted, Pte.accept_of_legal hlen]
  case symbol =>
    have hb : firstInvalid c.data = some (cmdByte c.data k) := firstInvalid_of_least hk hn hl
    have h4 : Pte.edge^[4] s = _ := Pte.edge_four_of_invalid hrest hc hlen ha hb hr
    refine ⟨?_, fun j hj => ⟨_, core_run_eq j s, Pte.pins_until_rejected hrest hc hlen ha hb hpins hr hj⟩⟩
    rw [core_run_eq, h4, Pte.accepted, Pte.accept_of_legal hlen]
    simp [hclaim, hout]

end Sys2Proof.Machine
end

section
/-! PROOFS. The reset family (70_reset_and_hazards.md): what RESET writes (R142), that it reads no other input (R144), and
the state after reset (R143). -/

namespace Sys2Proof.Machine

variable {B : Build} {s : Pte B}

/-- IDLE shows no status and no error (R33, R34). -/
theorem Pte.status_of_idle (h : s.st = .idle) :
    s.busy = false ∧ s.doneFlag = false ∧ s.err = false ∧ s.errCode = 0 ∧ s.errInfo = 0 := by
  have hrej : s.st ≠ .rejected := by simp [h]
  refine ⟨?_, ?_, ?_, Pte.errCode_of_not_rejected hrej, Pte.errInfo_of_not_rejected hrej⟩
  · simp [Pte.busy, FsmState.isBusy, h]
  · simp [Pte.doneFlag, h]
  · simp [Pte.err, h]

theorem exec_reset (start : Bool) (s : Pte B) : exec (.reset start) ⟨B, s⟩ = .next ⟨B, s.resetRegs⟩ := rfl

/-- In IDLE the invariant has every register that reset writes at its reset value (R142). -/
theorem Pte.Inv.resetRegs_of_idle (h : s.Inv) (hst : s.st = .idle) : s.resetRegs = s := by
  obtain ⟨hclaim, hout⟩ := h.pins.pins_of_not_claims (by rw [hst]; rfl)
  obtain ⟨hcounters, -, -⟩ := h.fresh
  obtain ⟨hrep, hidx, hcnt⟩ := hcounters (.inl hst)
  obtain ⟨hnone, -, -, hinfo⟩ := h.error
  have hperr : s.perr = .none := hnone (by simp [hst])
  have hpinfo : s.pinfo = 0 := hinfo (.inl hperr)
  cases s
  simp_all [Pte.resetRegs]

/-- Settles O20: RESET is `resetRegs`, and what it ends in is IDLE. -/
theorem resetRestoresRegisters : Obligations.ResetRestoresRegisters := by
  intro B s start
  rw [exec_reset]
  refine ⟨rfl, fun t ht => ?_, fun hinv hst => by rw [hinv.resetRegs_of_idle hst]⟩
  cases ht
  exact Pte.status_of_idle s.resetRegs_st

/-- The ports of a cycle with `rst` 1 leave no trace in the state after it (R144). -/
theorem Pte.edge_drive_of_reset {p : Ports B.lenW} (h : p.rst = true) : (s.drive p).edge = s.resetRegs.tick :=
  Pte.edge_of_reset (s := s.drive p) h

/-- Settles O21: both edges are the reset of the registers. -/
theorem resetReadsNoOtherInput : Obligations.ResetReadsNoOtherInput := by
  intro B s p p' hr hr'
  rw [step_eq_edge, step_eq_edge, Pte.edge_drive_of_reset hr, Pte.edge_drive_of_reset hr']
  exact ⟨rfl, _, rfl, s.resetRegs_st, s.resetRegs_pinOut, s.resetRegs_pinClaim⟩

/-- Settles O40: the registers are set by `Pte.reset`, and the outputs are IDLE's. -/
theorem resetValues : Obligations.ResetValues := by
  intro B
  obtain ⟨hbusy, -, herr, hcode, hinfo⟩ := Pte.status_of_idle (s := Pte.reset B) rfl
  exact ⟨rfl, rfl, rfl, rfl, rfl, rfl, rfl, rfl, hbusy, herr, hcode, hinfo⟩

end Sys2Proof.Machine
end

section
/-! PROOFS. The encoding family (30_encoding.md), the images and the codes: decoding and encoding are inverse to each other
(R53, R55, R60), and where the bytes of a command and of a string lie (R42, R55, R67). -/

namespace Sys2Proof

/-! The codes of `st` (R60) -/

theorem FsmState.isIllegal_iff_code (st : FsmState) : st.isIllegal = true ↔ 10 ≤ st.code.toNat := by
  cases st with
  | illegal k =>
    have hk : (FsmState.illegal k).code.toNat = 10 + k.val := by
      rw [FsmState.code, BitVec.toNat_ofNat, Nat.mod_eq_of_lt (by omega)]
    simp [FsmState.isIllegal, hk]
  | _ => decide

@[simp] theorem FsmState.ofCode_code (st : FsmState) : FsmState.ofCode st.code = st := by
  cases st with
  | illegal k => revert k; decide
  | _ => rfl

theorem FsmState.code_ofCode : ∀ c : BitVec 4, (FsmState.ofCode c).code = c := by decide

/-- Settles O3: `ofCode` is the inverse of `code`, and `10 + k` is at least 10. -/
theorem stateCodesAreOneToOne : Obligations.StateCodesAreOneToOne :=
  ⟨⟨rfl, rfl, rfl, rfl, rfl, rfl, rfl, rfl, rfl, rfl⟩, FsmState.isIllegal_iff_code, FsmState.ofCode_code,
    FsmState.code_ofCode⟩

/-! Words and instructions -/

theorem decode_encode_reset (W : LenWidth) (start : Bool) : decode (encode W (.reset start)) = .reset start := by
  cases start <;> rfl

theorem decodeState_illegal1011 : ∀ low : BitVec 1, decodeState (0b101#3 ++ low) = .illegalState1011 low := by decide
theorem decodeState_illegal1215 : ∀ low : BitVec 2, decodeState (0b11#2 ++ low) = .illegalState1215 low := by decide

/-- The word of a well-formed instruction decodes to it (R56, R58, R60). -/
theorem decode_encode {W : LenWidth} {i : Instr} (h : WellFormed W i = true) : decode (encode W i) = i := by
  cases i with
  | transmit len data =>
    have hlen : len < 2 ^ W.val := of_decide_eq_true h
    show Instr.transmit (lenOperand W len).toNat data = _
    rw [toNat_lenOperand_of_lt hlen]
  | reset start => exact decode_encode_reset W start
  | symInvalid c =>
    have hc : dec c = none := (dec_eq_none_iff c).mpr (by simpa [WellFormed] using h)
    exact decode_sym_of_invalid hc
  | illegalState1011 low => exact decodeState_illegal1011 low
  | illegalState1215 low => exact decodeState_illegal1215 low
  | _ => rfl

/-- A byte decodes to the symbol it encodes, whose word it is (R58). -/
theorem encode_decode_sym (W : LenWidth) (b : Byte) : encode W (decode (W := W) (.sym b)) = .sym b := by
  cases hd : dec b with
  | none => rw [decode_sym_of_invalid hd]; rfl
  | some x =>
    cases x with
    | zero => rw [decode_sym_of_zero hd, (dec_eq_zero_iff b).mp hd]; rfl
    | one => rw [decode_sym_of_one hd, (dec_eq_one_iff b).mp hd]; rfl

theorem encode_decode_state (W : LenWidth) (n : BitVec 4) : encode W (decode (W := W) (.state n)) = .state n := by
  obtain ⟨⟨n, hn⟩⟩ := n
  interval_cases n <;> rfl

theorem encode_decode_transmit {W : LenWidth} (len : LenWord W) (data : CmdData) :
    encode W (decode (.ctrl 1 len data)) = .ctrl 1 len data := by
  show Code.ctrl 1 (lenOperand W len.toNat) data = _
  rw [lenOperand_toNat]

/-- NOP and RESET do not read the CMD operand (R56). -/
theorem encode_decode_ctrl {W : LenWidth} {w : BitVec 2} (hw : w ≠ 1) (len : LenWord W) (data : CmdData) :
    encode W (decode (.ctrl w len data)) = .ctrl w 0 0 := by
  obtain ⟨⟨w, hlt⟩⟩ := w
  interval_cases w
  · rfl
  · exact absurd rfl hw
  · rfl
  · rfl

theorem wellFormed_decode {W : LenWidth} (c : Code W) : WellFormed W (decode c) = true := by
  cases c with
  | ctrl w len data =>
    simp only [decode, decodeCtrl]
    split
    case h_2 => exact decide_eq_true len.isLt
    all_goals rfl
  | sym b =>
    cases hd : dec b with
    | none =>
      rw [decode_sym_of_invalid hd]
      simpa [WellFormed] using (dec_eq_none_iff b).mp hd
    | some x =>
      cases x with
      | zero => rw [decode_sym_of_zero hd]; rfl
      | one => rw [decode_sym_of_one hd]; rfl
  | state n =>
    simp only [decode, decodeState]
    split <;> rfl

/-- Settles O7: SYM, STATE and TRANSMIT words are given back whole, and what NOP and RESET do not read is zero. -/
theorem encodeAfterDecode : Obligations.EncodeAfterDecode := fun W =>
  ⟨wellFormed_decode, encode_decode_sym W, encode_decode_state W, encode_decode_transmit,
    fun _ len data hw => encode_decode_ctrl hw len data⟩

/-! Byte images (log entry 12) -/

theorem lenW_le_lenBytes (W : LenWidth) : W.val ≤ 8 * lenBytes W := by
  unfold lenBytes; omega

/-- The length operand is read back from its bytes. -/
theorem leNat_lenBytes {W : LenWidth} (len : LenWord W) : leNat (leBytes (lenBytes W) len.toNat) = len.toNat := by
  rw [leNat_leBytes]
  exact Nat.mod_eq_of_lt (lt_of_lt_of_le len.isLt (Nat.pow_le_pow_right (by decide) (lenW_le_lenBytes W)))

/-- The byte image of a word holds that word. -/
theorem Code.ofBytes_bytes {W : LenWidth} (c : Code W) : Code.ofBytes W c.format c.bytes = .ok c := by
  cases c with
  | ctrl w len data =>
    have hw : w.toNat % 256 < 4 := lt_of_le_of_lt (Nat.mod_le _ _) w.isLt
    have hlen : ¬2 ^ W.val ≤ len.toNat := not_le.mpr len.isLt
    have hdata : BitVec.ofNat 200 (leNat (leBytes 25 data.toNat)) = data := ofNat_leNat_leBytes (by decide) data
    have htake : (leBytes (lenBytes W) len.toNat ++ leBytes 25 data.toNat).take (lenBytes W) =
        leBytes (lenBytes W) len.toNat := List.take_left' (length_leBytes _ _)
    have hdrop : (leBytes (lenBytes W) len.toNat ++ leBytes 25 data.toNat).drop (lenBytes W) =
        leBytes 25 data.toNat := List.drop_left' (length_leBytes _ _)
    simp only [Code.format, Code.bytes, Code.ofBytes, htake, hdrop, leNat_lenBytes, hdata]
    simp [hw, hlen]
  | sym b => rfl
  | state n =>
    have hn : n.toNat % 256 < 16 := lt_of_le_of_lt (Nat.mod_le _ _) n.isLt
    simp [Code.format, Code.bytes, Code.ofBytes, hn]

/-- Settles O6: an image holds the word it was made of, and the word of a well-formed instruction decodes to it. -/
theorem decodeAfterEncode : Obligations.DecodeAfterEncode := by
  intro W i h
  rw [decodeBytes, encodeBytes, Code.ofBytes_bytes]
  exact congrArg Except.ok (decode_encode h)

/-- Settles O5: each image, read as the format says. -/
theorem sampleWordsDecode : Obligations.SampleWordsDecode :=
  ⟨rfl, rfl, fun _ => ⟨rfl, rfl, rfl, rfl, rfl, rfl, rfl⟩⟩

/-! Bytes of a number and of a command -/

/-- Byte `i` of the number that a list of bytes stands for (R42). -/
theorem leNat_byte (bs : List Byte) (i : Nat) : leNat bs / 2 ^ (8 * i) % 256 = (bs.getD i 0).toNat := by
  induction bs generalizing i with
  | nil => simp [leNat]
  | cons b bs ih =>
    have hb : b.toNat < 256 := b.isLt
    cases i with
    | zero => simp [leNat, Nat.mod_eq_of_lt hb]
    | succ i =>
      have hpow : 2 ^ (8 * (i + 1)) = 256 * 2 ^ (8 * i) := by rw [Nat.mul_succ, Nat.pow_add]; omega
      have hdiv : (b.toNat + 256 * leNat bs) / 256 = leNat bs := by omega
      rw [leNat, hpow, ← Nat.div_div_eq_div_mul, hdiv, ih, List.getD_cons_succ]

theorem leNat_lt (bs : List Byte) : leNat bs < 2 ^ (8 * bs.length) := by
  induction bs with
  | nil => simp [leNat]
  | cons b bs ih =>
    have hb : b.toNat < 256 := b.isLt
    have hpow : 2 ^ (8 * (bs.length + 1)) = 256 * 2 ^ (8 * bs.length) := by rw [Nat.mul_succ, Nat.pow_add]; omega
    rw [leNat, List.length_cons, hpow]
    omega

namespace Machine

theorem toNat_cmdByte (q : CmdData) (i : Nat) : (cmdByte q i).toNat = q.toNat / 2 ^ (8 * i) % 256 := by
  rw [cmdByte, BitVec.extractLsb'_toNat, Nat.shiftRight_eq_div_pow]

/-- Settles O8: byte `i` is the 8 bits from `8 * i` on. -/
theorem commandByteOrder : Obligations.CommandByteOrder := by
  intro q i j _ hj
  simp [cmdByte, hj]

/-- Character `i` of a string is byte `i` of its command, and the bytes beyond the string are zero (R55). -/
theorem cmdByte_commandOfText (W : LenWidth) (text : List Byte) {i : Nat} (hi : i < 25) :
    cmdByte (commandOfText W text).data i = text.getD i 0 := by
  have hfit : leNat (text.take 25) < 2 ^ 200 :=
    lt_of_lt_of_le (leNat_lt _) (Nat.pow_le_pow_right (by decide) (by rw [List.length_take]; omega))
  have htake : (text.take 25).getD i 0 = text.getD i 0 := by simp [List.getD_eq_getElem?_getD, hi]
  apply BitVec.eq_of_toNat_eq
  rw [toNat_cmdByte, commandOfText, BitVec.toNat_ofNat, Config.nSym, Nat.mod_eq_of_lt hfit, leNat_byte, htake]

/-- A length that `LEN_W` bits do not hold is presented as the largest one that they do (log entry 17). -/
theorem lenOperand_saturates {W : LenWidth} {n : Nat} (h : 2 ^ W.val ≤ n) :
    lenOperand W n = lenOperand W (2 ^ W.val - 1) := by
  rw [lenOperand, lenOperand, min_eq_right (by omega), min_self]

/-- Settles O9: the bytes are those of the number that the string stands for, and `lenOperand` saturates. -/
theorem textCommandLayout : Obligations.TextCommandLayout := by
  intro W text
  refine ⟨fun i => cmdByte_commandOfText W text, toNat_lenOperand_of_lt, lenOperand_of_ge, fun len data s hs hlen => ?_⟩
  subst hs
  show execTransmit len data s = execTransmit _ data s
  rw [execTransmit, execTransmit, lenOperand_saturates hlen]

end Machine
end Sys2Proof
end

section
/-! PROOFS. The state and sequencer families, the invariant of the states that reset reaches (R20 to R30, R104, R109): what
can follow a state of the invariant, said once as a relation, and what each clause of the invariant becomes along it. -/

namespace Sys2Proof

/-- No state step leads to an illegal code (R21). -/
theorem FsmState.legal_of_mem_successors {st t : FsmState} (h : t ∈ st.successors) : t.isIllegal = false := by
  cases t with
  | illegal k => cases st <;> simp [FsmState.successors] at h
  | _ => rfl

namespace Machine

variable {B : Build} {s t : Pte B}

/-- The registers after an edge from a state of the invariant: every operation that a step then can be, with the state
and the guard it belongs to (R84 to R93, R142). Error entry from a pulse state and the recovery of an illegal code are
not among them. -/
inductive Pte.Follows (s : Pte B) : Pte B → Prop
  | reset : Pte.Follows s s.resetRegs
  | rest (hst : s.st.acceptsStart = true) : Pte.Follows s s
  | accept (c : Command B.lenW) (hst : s.st.acceptsStart = true) : Pte.Follows s (s.accept c)
  | claim (hst : s.st = .claim) : Pte.Follows s (s.claimPin.goto .validate)
  | unavailable (hst : s.st = .claim) : Pte.Follows s (s.raise .pinUnavailable 0)
  | agcHigh (hst : s.st = .validate) (hv : ValidCommand s.cmdQ) :
      Pte.Follows s (((s.setLevel true).loadHold (holdCount B.ticksPerUs .agcH)).goto .agcHigh)
  | invalid (c : Byte) (hst : s.st = .validate) : Pte.Follows s (s.raiseInvalidSymbol c)
  | hold (hp : s.st.isPulse = true) (hc : s.cnt ≠ 0) : Pte.Follows s s.holdTick
  | agcLow (hst : s.st = .agcHigh) : Pte.Follows s { s.beginAgcLow with rep := 0 }
  | firstSymbol (b : Symbol) (hst : s.st = .agcLow) : Pte.Follows s ({ s with idx := 0 }.beginHigh b)
  | lowPhase (b : Symbol) (hst : s.st = .symHigh) : Pte.Follows s (s.beginLow b)
  | nextSymbol (b : Symbol) (hst : s.st = .symLow) (hi : s.idx.toNat < 24) :
      Pte.Follows s ({ s with idx := s.idxSucc }.beginHigh b)
  | repetition (hst : s.st = .symLow) (hr : s.rep.toNat < 5) :
      Pte.Follows s { s.beginAgcLow with rep := s.repSucc, idx := 0 }
  | last (hst : s.st = .symLow) : Pte.Follows s ((s.setLevel false).goto .release)
  | release (hst : s.st = .release) : Pte.Follows s (releaseStep s)

/-- A pulse state either counts down or is at the end of its hold. -/
theorem Pte.holding_or_expired (s : Pte B) :
    s.st.isPulse = true ∧ s.cnt ≠ 0 ∨ (s.st.isPulse = true → s.cnt = 0) := by
  by_cases hc : s.cnt = 0
  · exact .inr fun _ => hc
  · exact (em (s.st.isPulse = true)).imp (fun hp => ⟨hp, hc⟩) fun hp h => absurd h hp

/-! Row by row, that it holds. The checks of AGC_LOW, SYM_HIGH and SYM_LOW find a symbol, because the command is valid
(R104). -/

theorem stateStep_follows_of_accepts (h : s.st.acceptsStart = true) (cmd : Option (Command B.lenW)) :
    s.Follows (stateStep cmd s) := by
  cases cmd with
  | none => rw [stateStep_of_rest h]; exact .rest h
  | some c => rw [stateStep_of_accepts h]; exact .accept c h

theorem claimStep_follows (h : s.st = .claim) : s.Follows (claimStep s) := by
  cases ha : s.ports.pinAvail with
  | true => rw [claimStep_of_avail ha]; exact .claim h
  | false => rw [claimStep_of_unavail ha]; exact .unavailable h

theorem validateStep_follows (h : s.st = .validate) : s.Follows (validateStep s) := by
  by_cases hv : ValidCommand s.cmdQ
  · rw [validateStep_of_valid hv]; exact .agcHigh h hv
  · obtain ⟨c, hs⟩ := validateStep_of_invalid hv
    rw [hs]; exact .invalid c h

theorem agcLowStep_follows (h : s.st = .agcLow) (hc : s.cnt = 0) (hv : ValidCommand s.cmdQ) :
    s.Follows (agcLowStep s) := by
  obtain ⟨b, -, hs⟩ | ⟨hn, -⟩ := agcLowStep_of_expired hc
  · rw [hs]; exact .firstSymbol b h
  · exact absurd hn (hv 0 (by decide))

theorem symHighStep_follows (h : s.st = .symHigh) (hc : s.cnt = 0) (hi : s.idx.toNat ≤ 24) (hv : ValidCommand s.cmdQ) :
    s.Follows (symHighStep s) := by
  obtain ⟨b, -, hs⟩ | ⟨hn, -⟩ := symHighStep_of_expired hc
  · rw [hs]; exact .lowPhase b h
  · rw [Pte.symByte_of_lt (by omega)] at hn
    exact absurd hn (hv _ (by omega))

theorem symLowStep_follows (h : s.st = .symLow) (hc : s.cnt = 0) (hrange : s.InRange) (hv : ValidCommand s.cmdQ) :
    s.Follows (symLowStep s) := by
  obtain ⟨hrep, hidx, -⟩ := hrange
  obtain ⟨b, hne, -, hs⟩ | ⟨hne, hn, -⟩ | ⟨-, hr, hs⟩ | ⟨-, -, hs⟩ := symLowStep_of_expired hc
  · rw [hs]; exact .nextSymbol b h (by bv_omega)
  · have hlt : s.idx.toNat + 1 < 25 := by bv_omega
    rw [Pte.symByte_of_lt hlt] at hn
    exact absurd hn (hv _ hlt)
  · rw [hs]; exact .repetition h (by bv_omega)
  · rw [hs]; exact .last h

/-- Every edge from a state of the invariant is one of the operations. -/
theorem Pte.Inv.follows (h : s.Inv) : s.Follows s.regsAfter := by
  unfold Pte.regsAfter
  split
  · exact .reset
  obtain ⟨hp, hc⟩ | hexp := s.holding_or_expired
  · rw [stateStep_of_hold hp hc]
    exact .hold hp hc
  have hvalid : s.st.isPulse = true → ValidCommand s.cmdQ := fun hp =>
    (firstInvalid_eq_none_iff _).mp (h.command hp)
  obtain ⟨-, hidx, -⟩ := h.range
  have hlegal := h.legal
  cases hst : s.st <;> rw [hst] at hexp hvalid hlegal
  case idle | done | rejected => exact stateStep_follows_of_accepts (by rw [hst]; rfl) _
  case claim => rw [stateStep_of_claim hst]; exact claimStep_follows hst
  case validate => rw [stateStep_of_validate hst]; exact validateStep_follows hst
  case agcHigh => rw [stateStep_of_agcHigh hst, agcHighStep_of_expired (hexp rfl)]; exact .agcLow hst
  case agcLow => rw [stateStep_of_agcLow hst]; exact agcLowStep_follows hst (hexp rfl) (hvalid rfl)
  case symHigh => rw [stateStep_of_symHigh hst]; exact symHighStep_follows hst (hexp rfl) hidx (hvalid rfl)
  case symLow => rw [stateStep_of_symLow hst]; exact symLowStep_follows hst (hexp rfl) h.range (hvalid rfl)
  case release => rw [stateStep_of_release hst]; exact .release hst
  case illegal k => cases hlegal

/-! The counters (R109) -/

/-- Below the last repetition the repetition counter goes up by one (R109). -/
theorem Pte.toNat_repSucc (h : s.rep.toNat < 5) : s.repSucc.toNat = s.rep.toNat + 1 := by
  have h7 : s.rep ≠ 7#3 := by rintro e; simp [e] at h
  rw [Pte.repSucc, if_neg h7]
  bv_omega

theorem Pte.toNat_cnt_holdTick_succ (hc : s.cnt ≠ 0) : s.holdTick.cnt.toNat + 1 = s.cnt.toNat := by
  have hpos : s.cnt.toNat ≠ 0 := fun e => hc (BitVec.eq_of_toNat_eq (by simpa using e))
  rw [Pte.toNat_holdTick_cnt hc]
  omega

/-- `cnt` is kept, counted down, cleared, or loaded with a hold count less one. -/
theorem Pte.Follows.cnt (h : s.Follows t) : t.cnt = s.cnt ∨ t.cnt.toNat + 1 = s.cnt.toNat ∨ t.cnt = 0 ∨
    ∃ k, t.cnt.toNat + 1 = holdCount B.ticksPerUs k := by
  have hload : ∀ k, (BitVec.ofNat (Config.cntW B.ticksPerUs) (holdCount B.ticksPerUs k - 1)).toNat + 1 =
    holdCount B.ticksPerUs k := toNat_loaded_add_one _
  cases h with
  | reset | accept => exact .inr (.inr (.inl (by simp)))
  | rest | claim | last | release => exact .inl rfl
  | unavailable | invalid => exact .inl (s.raise_cnt _ _)
  | hold _ hc => exact .inr (.inl (Pte.toNat_cnt_holdTick_succ hc))
  | agcHigh | agcLow | repetition => exact .inr (.inr (.inr ⟨_, hload _⟩))
  | firstSymbol | lowPhase | nextSymbol => exact .inr (.inr (.inr ⟨_, hload _⟩))

/-- `idx` is kept, cleared, or counted up below 24. -/
theorem Pte.Follows.idx (h : s.Follows t) :
    t.idx = s.idx ∨ t.idx = 0 ∨ s.idx ≠ 24 ∧ t.idx.toNat = s.idx.toNat + 1 := by
  cases h with
  | reset | accept => exact .inr (.inl (by simp))
  | firstSymbol | repetition => exact .inr (.inl rfl)
  | rest | claim | agcHigh | hold | agcLow | lowPhase | last | release => exact .inl rfl
  | unavailable | invalid => exact .inl (s.raise_idx _ _)
  | nextSymbol b _ hi => exact .inr (.inr ⟨by rintro e; simp [e] at hi, Pte.toNat_idxSucc hi⟩)

/-- `rep` is kept, cleared, or counted up below 5. -/
theorem Pte.Follows.rep (h : s.Follows t) :
    t.rep = s.rep ∨ t.rep = 0 ∨ s.rep ≠ 5 ∧ t.rep.toNat = s.rep.toNat + 1 := by
  cases h with
  | reset | accept => exact .inr (.inl (by simp))
  | agcLow => exact .inr (.inl rfl)
  | rest | claim | agcHigh | hold | firstSymbol | lowPhase | nextSymbol | last | release => exact .inl rfl
  | unavailable | invalid => exact .inl (s.raise_rep _ _)
  | repetition _ hr => exact .inr (.inr ⟨by rintro e; simp [e] at hr, Pte.toNat_repSucc hr⟩)

theorem Pte.Follows.inRange (h : s.Follows t) (hs : s.InRange) : t.InRange := by
  obtain ⟨hrep, hidx, hcnt⟩ := hs
  refine ⟨?_, ?_, ?_⟩
  · obtain e | e | ⟨hne, e⟩ := h.rep
    · rwa [e]
    · simp [e]
    · bv_omega
  · obtain e | e | ⟨hne, e⟩ := h.idx
    · rwa [e]
    · simp [e]
    · bv_omega
  · obtain e | e | e | ⟨k, e⟩ := h.cnt
    · rwa [e]
    · omega
    · simp [e]
    · have := holdCount_le B.ticksPerUs k
      omega

/-! The other clauses -/

/-- The counters are fresh in a state that none of the three clauses names. -/
theorem Pte.countersFresh_of_later (h : t.st = .symHigh ∨ t.st = .symLow ∨ t.st = .release ∨ t.st = .done ∨
    t.st = .rejected) : t.CountersFresh := by
  obtain e | e | e | e | e := h <;> simp [Pte.CountersFresh, e]

theorem Pte.countersFresh_of_raise (e : ErrorCode) (info : LenWord B.lenW) : (s.raise e info).CountersFresh := by
  refine Pte.countersFresh_of_later ?_
  rw [Pte.raise_st]
  split <;> simp

theorem Pte.Follows.countersFresh (h : s.Follows t) (hs : s.CountersFresh) : t.CountersFresh := by
  obtain ⟨hearly, hhigh, hlow⟩ := hs
  cases h with
  | reset => exact ⟨fun _ => ⟨rfl, rfl, rfl⟩, fun _ => ⟨rfl, rfl⟩, fun _ => rfl⟩
  | rest => exact ⟨hearly, hhigh, hlow⟩
  | accept c => exact ⟨fun _ => by simp, fun _ => by simp, fun _ => by simp⟩
  | claim hst =>
    have hzero := hearly (.inr (.inl hst))
    exact ⟨fun _ => hzero, nofun, nofun⟩
  | agcHigh hst =>
    obtain ⟨hrep, hidx, -⟩ := hearly (.inr (.inr hst))
    exact ⟨by simp, fun _ => ⟨hrep, hidx⟩, nofun⟩
  | hold hp hc =>
    refine ⟨fun hst => ?_, hhigh, hlow⟩
    obtain ⟨-, -, hcnt⟩ := hearly hst
    exact absurd hcnt hc
  | agcLow hst => exact ⟨by simp, nofun, fun _ => (hhigh hst).2⟩
  | repetition => exact ⟨by simp, nofun, fun _ => rfl⟩
  | unavailable | invalid => exact Pte.countersFresh_of_raise _ _
  | firstSymbol | lowPhase | nextSymbol | last => exact Pte.countersFresh_of_later (by simp)
  | release =>
    refine Pte.countersFresh_of_later ?_
    rw [releaseStep_st]
    split <;> simp

/-- A pulse state is entered from VALIDATE, which has checked the command, or from a pulse state (R104). -/
theorem Pte.Follows.commandValid (h : s.Follows t) (hs : s.CommandValid) : t.CommandValid := by
  intro hp
  have hkept : s.st.isPulse = true → t.cmdQ = s.cmdQ → firstInvalid t.cmdQ = none := fun hps hq => hq ▸ hs hps
  cases h with
  | reset | claim | last => cases hp
  | rest => exact hs hp
  | accept c hst => rw [← stateStep_of_accepts hst, stateStep_not_isPulse_of_accepts hst] at hp; cases hp
  | unavailable => rw [Pte.raise_not_isPulse] at hp; cases hp
  | invalid => rw [Pte.raiseInvalidSymbol_not_isPulse] at hp; cases hp
  | agcHigh _ hv => exact (firstInvalid_eq_none_iff _).mpr hv
  | hold hps => exact hkept hps rfl
  | agcLow hst | firstSymbol _ hst | lowPhase _ hst | nextSymbol _ hst | repetition hst =>
    exact hkept (by rw [hst]; rfl) rfl
  | release => rw [releaseStep_not_isPulse] at hp; cases hp

theorem Pte.errorMatches_of_none (hperr : t.perr = .none) (hinfo : t.pinfo = 0) (hst : t.st ≠ .rejected) :
    t.ErrorMatches :=
  ⟨fun _ => hperr, fun h => absurd h hst, fun _ => .inl hperr, fun _ => hinfo⟩

/-- Outside REJECTED and RELEASE no error is held (R26, R27). -/
theorem Pte.ErrorMatches.none (h : s.ErrorMatches) (hst : s.st ≠ .rejected ∧ s.st ≠ .release) :
    s.perr = .none ∧ s.pinfo = 0 := by
  obtain ⟨hnone, -, -, hinfo⟩ := h
  exact ⟨hnone hst, hinfo (.inl (hnone hst))⟩

theorem Pte.ErrorMatches.none_of_isPulse (h : s.ErrorMatches) (hp : s.st.isPulse = true) :
    s.perr = .none ∧ s.pinfo = 0 := by
  refine h.none ⟨fun e => ?_, fun e => ?_⟩ <;> (rw [e] at hp; cases hp)

theorem Pte.errorMatches_accept (c : Command B.lenW) : (s.accept c).ErrorMatches := by
  by_cases hlen : c.len = 25
  · rw [Pte.accept_of_legal hlen]
    exact Pte.errorMatches_of_none rfl rfl nofun
  · rw [Pte.accept_of_wrong_length hlen]
    exact ⟨fun h => absurd rfl h.1, nofun, nofun, nofun⟩

/-- CLAIM raises with the pin not claimed, VALIDATE with the pin claimed, so the error is where R16 says it goes. -/
theorem Pte.errorMatches_unavailable (hclaim : s.pinClaim = false) : (s.raise .pinUnavailable 0).ErrorMatches := by
  simp [Pte.ErrorMatches, hclaim]

theorem Pte.errorMatches_invalid (hclaim : s.pinClaim = true) (c : Byte) : (s.raiseInvalidSymbol c).ErrorMatches := by
  simp [Pte.ErrorMatches, Pte.raiseInvalidSymbol, hclaim]

theorem releaseStep_errorMatches (h : s.ErrorMatches) : (releaseStep s).ErrorMatches := by
  obtain ⟨-, -, -, hinfo⟩ := h
  by_cases he : s.perr = .none
  · exact Pte.errorMatches_of_none he (hinfo (.inl he)) (by simp [releaseStep_st, he])
  · have hrej : (releaseStep s).st = .rejected := by simp [releaseStep_st, he]
    exact ⟨fun h => absurd hrej h.1, fun _ => he, fun h => by simp [hrej] at h, hinfo⟩

theorem Pte.Follows.errorMatches (h : s.Follows t) (hpins : s.PinsMatch) (hs : s.ErrorMatches) : t.ErrorMatches := by
  cases h with
  | reset => exact Pte.errorMatches_of_none rfl rfl nofun
  | rest => exact hs
  | accept c => exact Pte.errorMatches_accept c
  | unavailable hst => exact Pte.errorMatches_unavailable (by rw [hpins.1, hst]; rfl)
  | invalid c hst => exact Pte.errorMatches_invalid (by rw [hpins.1, hst]; rfl) c
  | hold hp => exact hs
  | claim hst | agcHigh hst | agcLow hst | firstSymbol _ hst | lowPhase _ hst | nextSymbol _ hst | repetition hst
    | last hst =>
    obtain ⟨hperr, hinfo⟩ := hs.none (by simp [hst])
    exact Pte.errorMatches_of_none hperr hinfo nofun
  | release => exact releaseStep_errorMatches hs

/-- The hold counter stays below the hold count: it is loaded with less where a pulse begins, and counts down in it. -/
theorem Pte.Inv.edge_countInPulse (h : s.Inv) (hidx : s.edge.idx.toNat ≤ 24) : s.edge.CountInPulse := by
  intro n hn
  by_cases hp : s.edge.st.isPulse = true
  case neg => cases hst : s.edge.st <;> simp [hst, FsmState.isPulse, Pte.pulseCount] at hp hn
  by_cases hst : s.edge.st = s.st
  case neg =>
    have hbegin : s.edge.pulseCount = some (s.edge.cnt.toNat + 1) := h.edge_begins hp hst
    obtain rfl : s.edge.cnt.toNat + 1 = n := Option.some.inj (hbegin.symm.trans hn)
    omega
  have hr : s.ports.rst = false := Pte.no_reset_of_edge_st (by rintro e; rw [e] at hp; cases hp)
  have hc : s.cnt ≠ 0 := by
    intro hc
    have hleaves := stateStep_leaves_pulse (hst ▸ hp) hc s.ports.command
    rw [Pte.edge_of_no_reset hr] at hst
    exact hleaves hst
  have he : s.edge = s.holdTick.tick := Pte.edge_hold hr (hst ▸ hp) hc
  rw [he] at hn hidx ⊢
  have hbyte : s.holdTick.tick.symByte s.holdTick.tick.idx.toNat = s.symByte s.idx.toNat := by
    have hlt : s.idx.toNat < 25 := Nat.lt_succ_of_le hidx
    exact (Pte.symByte_of_lt (s := s.holdTick.tick) hlt).trans (Pte.symByte_of_lt (s := s) hlt).symm
  have hsame : s.holdTick.tick.pulseCount = s.pulseCount := by simp only [Pte.pulseCount, hbyte]; rfl
  have hlt := h.count n (hsame ▸ hn)
  have hdown := Pte.toNat_cnt_holdTick_succ hc
  rw [Pte.tick_cnt]
  omega

/-- Every edge keeps the invariant, whatever the inputs. -/
theorem Pte.Inv.edge (h : s.Inv) : s.edge.Inv := by
  have hf : s.Follows s.regsAfter := h.follows
  have hrange : s.edge.InRange := hf.inRange h.range
  have ⟨_, hidx, _⟩ := hrange
  exact {
    legal := by
      cases hr : s.ports.rst with
      | true => rw [Pte.edge_of_reset hr]; rfl
      | false => exact FsmState.legal_of_mem_successors (Pte.edge_st_mem_successors hr)
    pins := h.pins.edge
    range := hrange
    fresh := hf.countersFresh h.fresh
    command := hf.commandValid h.command
    error := hf.errorMatches h.pins h.error
    count := h.edge_countInPulse hidx }

/-- Settles O38: each clause is kept along the operations that can follow a state of the invariant. -/
theorem stepKeepsInvariant : Obligations.StepKeepsInvariant := by
  intro B s t h hstep
  rw [step_eq_edge] at hstep
  cases hstep
  exact h.edge

/-- In IDLE with every register at its reset value the invariant holds, whatever is driven (R20, R143). -/
theorem Pte.inv_reset_driven (B : Build) (inputs : List (Ports B.lenW)) :
    { Pte.reset B with driven := inputs }.Inv where
  legal := rfl
  pins := ⟨rfl, rfl⟩
  range := ⟨Nat.zero_le _, Nat.zero_le _, by simp [Pte.reset]⟩
  fresh := ⟨fun _ => ⟨rfl, rfl, rfl⟩, nofun, nofun⟩
  command := nofun
  error := Pte.errorMatches_of_none rfl rfl nofun
  count := nofun

/-- Settles O39: the state after reset is IDLE with nothing driven. -/
theorem invariantAtReset : Obligations.InvariantAtReset :=
  ⟨Pte.inv_reset_driven _ [], fun B => Pte.inv_reset_driven B []⟩

/-- Settles O42: the invariant holds after reset and every edge keeps it. -/
theorem reachableCountersInRange : Obligations.ReachableCountersInRange := by
  intro B inputs n t hrun
  have ht : t.Inv := of_core_run (P := Pte.Inv) (fun _ => Pte.Inv.edge) (Pte.inv_reset_driven B inputs) hrun
  exact ⟨ht.legal, ht.range⟩

/-- Settles O44: what each counter does along the operations that can follow, and that every hold count fits. -/
theorem countersNeverWrap : Obligations.CountersNeverWrap := by
  intro B s t h hstep
  rw [step_eq_edge] at hstep
  cases hstep
  have hf : s.Follows s.regsAfter := h.follows
  exact ⟨hf.cnt, holdCount_pred_lt _, hf.idx, hf.rep⟩

/-- A pulse state of the invariant records no error, and neither REJECTED nor an error follows it (R104). -/
theorem Pte.Follows.no_error_of_isPulse (h : s.Follows t) (hp : s.st.isPulse = true) (hs : s.ErrorMatches) :
    t.perr = .none ∧ t.st ≠ .rejected := by
  obtain ⟨hperr, -⟩ := hs.none_of_isPulse hp
  cases h with
  | reset => exact ⟨rfl, nofun⟩
  | rest hst | accept _ hst => cases hst' : s.st <;> simp [hst', FsmState.isPulse, FsmState.acceptsStart] at hp hst
  | hold => exact ⟨hperr, by rintro e; rw [Pte.holdTick_st] at e; rw [e] at hp; cases hp⟩
  | agcLow | firstSymbol | lowPhase | nextSymbol | repetition | last => exact ⟨hperr, nofun⟩
  | claim hst | unavailable hst | agcHigh hst | invalid _ hst | release hst => rw [hst] at hp; cases hp

/-- Settles O48: no operation that can follow a pulse state of the invariant raises an error, and its command is valid. -/
theorem inEncodingCheckIsDead : Obligations.InEncodingCheckIsDead := by
  intro B s t h hp hstep
  rw [step_eq_edge] at hstep
  cases hstep
  obtain ⟨hperr, hst⟩ := h.follows.no_error_of_isPulse hp h.error
  have hvalid : ValidCommand s.cmdQ := (firstInvalid_eq_none_iff _).mp (h.command hp)
  exact ⟨hperr, hst, fun i hi => by rw [Pte.symByte_of_lt hi]; exact hvalid i hi⟩

/-- Settles O45: while busy the state step is NOP's, which writes no `cmd_q`; so a change is an accepted TRANSMIT. -/
theorem commandImmutableWhileBusy : Obligations.CommandImmutableWhileBusy := by
  intro B s t hstep
  rw [step_eq_edge] at hstep
  cases hstep
  have hkept : s.ports.rst = true ∨ s.st.acceptsStart = false ∨ s.ports.command = none → s.edge.cmdQ = s.cmdQ := by
    cases hr : s.ports.rst with
    | true => exact fun _ => by rw [Pte.edge_of_reset hr]; rfl
    | false =>
      rw [Pte.edge_of_no_reset hr, Pte.tick_cmdQ]
      rintro (h | h | h)
      · cases h
      · rw [stateStep_of_ignores h, stateStep_none_cmdQ]
      · rw [h, stateStep_none_cmdQ]
  refine ⟨fun hbusy => hkept (.inr (.inl ?_)), fun hne => ?_⟩
  · rcases s.busy_iff.mp hbusy with h | h | h | h | h | h | h <;> rw [h] <;> rfl
  · obtain ⟨hr, hrest, hcmd⟩ : s.ports.rst = false ∧ s.st.acceptsStart = true ∧ s.ports.command ≠ none := by
      simpa using mt hkept hne
    obtain ⟨c, hc⟩ := Option.ne_none_iff_exists'.mp hcmd
    exact ⟨hrest, c, ⟨hr, hc⟩, by rw [Pte.edge_of_presents hrest ⟨hr, hc⟩]; simp⟩

end Machine
end Sys2Proof
end

section
/-! PROOFS. The sequencer and host-operation families, the dispatch of a step (R54, R83), the symbol rows (R95 to R97) and
the rows of CLAIM, VALIDATE, AGC_LOW, SYM_HIGH, SYM_LOW and RELEASE (R87, R88, R90 to R93). -/

namespace Sys2Proof

theorem FsmState.agcLow_mem_successors {st : FsmState} (h : .agcLow ∈ st.successors) :
    st = .agcLow ∨ st = .agcHigh ∨ st = .symLow := by
  cases st <;> simp [FsmState.successors] at h ⊢

namespace Machine

variable {B : Build} {s : Pte B}

/-! Dispatch (R83) -/

/-- Settles O10: a step is `exec` of the fetched operation and the passing of a cycle. -/
theorem stepRunsFetchedOperation : Obligations.StepRunsFetchedOperation := by
  intro B s t h
  show step ⟨B, s⟩ = .next ⟨B, t.tick⟩
  rw [step, h]

theorem exec_total (i : Instr) (s : Pte B) : ∃ t, exec i ⟨B, s⟩ = .next ⟨B, t⟩ := by
  cases i <;> exact ⟨_, rfl⟩

/-- Settles O11: every step is an edge, and every arm of `exec` answers a next state. -/
theorem stepNeverStops : Obligations.StepNeverStops :=
  ⟨fun _ s => ⟨_, step_eq_edge s⟩, fun i _ s => exec_total i s⟩

/-- The row that the code in `st` decodes to is the state step that `st` selects (R60, R83). -/
theorem exec_decode_state_code (s : Pte B) :
    exec (decode (W := B.lenW) (.state s.st.code)) ⟨B, s⟩ = .next ⟨B, stateStep s.ports.command s⟩ := by
  unfold stateStep
  cases s.st with
  | illegal k => fin_cases k <;> rfl
  | _ => rfl

/-- Settles O12: the edge is the state step that `st` selects, or the reset of the registers. -/
theorem stepDispatchesOnStateCode : Obligations.StepDispatchesOnStateCode := by
  intro B s
  refine ⟨fun hr t ht => ?_, fun hr t ht => ?_⟩
  · rw [exec_decode_state_code] at ht
    cases ht
    rw [step_eq_edge, Pte.edge_of_no_reset hr]
    rfl
  · rw [exec_reset] at ht
    cases ht
    rw [step_eq_edge, Pte.edge_of_reset hr]
    rfl

theorem exec_nop (s : Pte B) : exec .nop ⟨B, s⟩ = .next ⟨B, stateStep none s⟩ := rfl

/-- Settles O19: under NOP a state of rest changes nothing, and the other rows do not read the command. -/
theorem nopTakesStateStep : Obligations.NopTakesStateStep := by
  intro B s
  refine ⟨fun h => ?_, fun h => ?_⟩ <;> rw [exec_nop]
  · rw [stateStep_of_rest (s.st.acceptsStart_iff.mpr h)]
  · rw [exec_decode_state_code, stateStep_of_ignores h s.ports.command]

/-! Error entry, by whether the pin is claimed (R16) -/

theorem Pte.raise_of_claimed (h : s.pinClaim = true) (e : ErrorCode) (info : LenWord B.lenW) :
    s.raise e info = { s with perr := e, pinfo := info, pinOut := false, st := .release } := if_pos h

theorem Pte.raise_of_unclaimed (h : s.pinClaim = false) (e : ErrorCode) (info : LenWord B.lenW) :
    s.raise e info = { s with perr := e, pinfo := info, st := .rejected } := if_neg (by simp [h])

/-- Error entry neither reads nor writes `idx`. -/
theorem Pte.raise_with_idx (i : BitVec 5) (e : ErrorCode) (info : LenWord B.lenW) :
    { s with idx := i }.raise e info = { s.raise e info with idx := i } := by
  unfold Pte.raise; split <;> rfl

/-! The symbol rows, by the use that the state step makes of the byte (R95 to R97) -/

theorem exec_sym0 (s : Pte B) : exec .sym0 ⟨B, s⟩ = .next ⟨B, s.validSymbol .zero⟩ := rfl
theorem exec_sym1 (s : Pte B) : exec .sym1 ⟨B, s⟩ = .next ⟨B, s.validSymbol .one⟩ := rfl
theorem exec_symInvalid (c : Byte) (s : Pte B) : exec (.symInvalid c) ⟨B, s⟩ = .next ⟨B, s.invalidSymbol c⟩ := rfl

theorem Pte.validSymbol_of_highPhase (h : s.symbolUse = .highPhase) (b : Symbol) :
    s.validSymbol b = s.beginHigh b := by simp [Pte.validSymbol, h]
theorem Pte.validSymbol_of_lowPhase (h : s.symbolUse = .lowPhase) (b : Symbol) :
    s.validSymbol b = s.beginLow b := by simp [Pte.validSymbol, h]
theorem Pte.validSymbol_of_check_or_unread (h : s.symbolUse = .check ∨ s.symbolUse = .unread) (b : Symbol) :
    s.validSymbol b = s := by
  obtain h | h := h <;> simp [Pte.validSymbol, h]

theorem Pte.invalidSymbol_of_checked (h : s.symbolUse = .check ∨ s.symbolUse = .highPhase) (c : Byte) :
    s.invalidSymbol c = s.raise .invalidSymbol (c.setWidth B.lenW.val) := by
  obtain h | h := h <;> simp [Pte.invalidSymbol, h, Pte.raiseInvalidSymbol]
theorem Pte.invalidSymbol_of_lowPhase (h : s.symbolUse = .lowPhase) (c : Byte) :
    s.invalidSymbol c = s.beginLowUnstated c := by simp [Pte.invalidSymbol, h]
theorem Pte.invalidSymbol_of_unread (h : s.symbolUse = .unread) (c : Byte) : s.invalidSymbol c = s := by
  simp [Pte.invalidSymbol, h]

/-- Settles O35: `beginHigh` and `beginLow` of symbol 0, and nothing elsewhere. -/
theorem sym0RowEffect : Obligations.Sym0RowEffect := by
  intro B s
  rw [exec_sym0]
  exact ⟨rfl, rfl, rfl, fun h => by rw [Pte.validSymbol_of_highPhase h]; rfl,
    fun h => by rw [Pte.validSymbol_of_lowPhase h]; rfl, fun h => by rw [Pte.validSymbol_of_check_or_unread h]⟩

/-- Settles O36: `beginHigh` and `beginLow` of symbol 1, and nothing elsewhere. -/
theorem sym1RowEffect : Obligations.Sym1RowEffect := by
  intro B s
  rw [exec_sym1]
  exact ⟨rfl, rfl, rfl, fun h => by rw [Pte.validSymbol_of_highPhase h]; rfl,
    fun h => by rw [Pte.validSymbol_of_lowPhase h]; rfl, fun h => by rw [Pte.validSymbol_of_check_or_unread h]⟩

/-- Settles O37: error entry where a step checks the byte, and a free hold where SYM_HIGH does not. -/
theorem symInvalidRowEffect : Obligations.SymInvalidRowEffect := by
  intro B s c
  rw [exec_symInvalid]
  refine ⟨fun h0 h1 => (dec_eq_none_iff c).mpr ⟨h0, h1⟩, fun h hc => ?_, fun h hc => ?_,
    fun h => ⟨s.unstatedLowCount c, ?_⟩, fun h => by rw [Pte.invalidSymbol_of_unread h]⟩
  · rw [Pte.invalidSymbol_of_checked h, Pte.raise_of_claimed hc]
  · rw [Pte.invalidSymbol_of_checked h, Pte.raise_of_unclaimed hc]
  · rw [Pte.invalidSymbol_of_lowPhase h]; rfl

theorem exec_decode_sym_of_symbol {c : Byte} {b : Symbol} (h : dec c = some b) (s : Pte B) :
    exec (decode (W := B.lenW) (.sym c)) ⟨B, s⟩ = .next ⟨B, s.validSymbol b⟩ := by
  cases b with
  | zero => rw [decode_sym_of_zero h]; rfl
  | one => rw [decode_sym_of_one h]; rfl

theorem exec_decode_sym_of_invalid {c : Byte} (h : dec c = none) (s : Pte B) :
    exec (decode (W := B.lenW) (.sym c)) ⟨B, s⟩ = .next ⟨B, s.invalidSymbol c⟩ := by
  rw [decode_sym_of_invalid h]; rfl

/-! What the pulse states do when their hold is over, by the byte that they read (R90 to R92) -/

theorem agcLowStep_of_symbol {b : Symbol} (hc : s.cnt = 0) (hd : dec (cmdByte s.cmdQ 0) = some b) :
    agcLowStep s = { s with idx := 0 }.beginHigh b := by
  obtain ⟨b', hd', hs⟩ | ⟨hn, -⟩ := agcLowStep_of_expired hc
  · rw [hs, Option.some.inj (hd'.symm.trans hd)]
  · cases hn.symm.trans hd

theorem agcLowStep_of_invalid (hc : s.cnt = 0) (hn : dec (cmdByte s.cmdQ 0) = none) :
    agcLowStep s = { s.raiseInvalidSymbol (cmdByte s.cmdQ 0) with idx := 0 } := by
  obtain ⟨b, hd, -⟩ | ⟨-, hs⟩ := agcLowStep_of_expired hc
  · cases hn.symm.trans hd
  · rw [hs]; exact Pte.raise_with_idx 0 _ _

theorem symHighStep_of_symbol {b : Symbol} (hc : s.cnt = 0) (hd : dec (s.symByte s.idx.toNat) = some b) :
    symHighStep s = s.beginLow b := by
  obtain ⟨b', hd', hs⟩ | ⟨hn, -⟩ := symHighStep_of_expired hc
  · rw [hs, Option.some.inj (hd'.symm.trans hd)]
  · cases hn.symm.trans hd

theorem symHighStep_of_invalid (hc : s.cnt = 0) (hn : dec (s.symByte s.idx.toNat) = none) :
    symHighStep s = s.beginLowUnstated (s.symByte s.idx.toNat) := by
  obtain ⟨b, hd, -⟩ | ⟨-, hs⟩ := symHighStep_of_expired hc
  · cases hn.symm.trans hd
  · exact hs

theorem symLowStep_of_symbol {b : Symbol} (hc : s.cnt = 0) (hi : s.idx ≠ 24#5)
    (hd : dec (s.symByte (s.idx.toNat + 1)) = some b) :
    symLowStep s = { s with idx := s.idxSucc }.beginHigh b := by
  obtain ⟨b', -, hd', hs⟩ | ⟨-, hn, -⟩ | ⟨he, -⟩ | ⟨he, -⟩ := symLowStep_of_expired hc
  · rw [hs, Option.some.inj (hd'.symm.trans hd)]
  · cases hn.symm.trans hd
  all_goals exact absurd he hi

theorem symLowStep_of_invalid (hc : s.cnt = 0) (hi : s.idx ≠ 24#5) (hn : dec (s.symByte (s.idx.toNat + 1)) = none) :
    symLowStep s = { s.raiseInvalidSymbol (s.symByte (s.idx.toNat + 1)) with idx := s.idxSucc } := by
  obtain ⟨b, -, hd, -⟩ | ⟨-, -, hs⟩ | ⟨he, -⟩ | ⟨he, -⟩ := symLowStep_of_expired hc
  · cases hn.symm.trans hd
  · rw [hs]; exact Pte.raise_with_idx _ _ _
  all_goals exact absurd he hi

theorem symLowStep_of_repetition (hc : s.cnt = 0) (hi : s.idx = 24#5) (hr : s.rep ≠ 5#3) :
    symLowStep s = { s.beginAgcLow with rep := s.repSucc, idx := 0 } := by
  obtain ⟨_, hne, -⟩ | ⟨hne, -⟩ | ⟨-, -, hs⟩ | ⟨-, he, -⟩ := symLowStep_of_expired hc
  · exact absurd hi hne
  · exact absurd hi hne
  · exact hs
  · exact absurd he hr

theorem symLowStep_of_last (hc : s.cnt = 0) (hi : s.idx = 24#5) (hr : s.rep = 5#3) :
    symLowStep s = (s.setLevel false).goto .release := by
  obtain ⟨_, hne, -⟩ | ⟨hne, -⟩ | ⟨-, hne, -⟩ | ⟨-, -, hs⟩ := symLowStep_of_expired hc
  · exact absurd hi hne
  · exact absurd hi hne
  · exact absurd hr hne
  · exact hs

theorem Pte.ne_24_of_lt (h : s.idx.toNat < 24) : s.idx ≠ 24#5 := by rintro e; simp [e] at h

theorem Pte.idxSucc_of_lt (h : s.idx.toNat < 24) : s.idxSucc = s.idx + 1 :=
  if_neg (by rintro e; simp [e] at h)

theorem Pte.symByte_succ_of_lt (h : s.idx.toNat < 24) :
    s.symByte (s.idx.toNat + 1) = cmdByte s.cmdQ (s.idx.toNat + 1) := Pte.symByte_of_lt (by omega)

/-! A symbol row and the state step that reads the byte (log entry 10) -/

theorem exec_agcLow (s : Pte B) : exec .agcLow ⟨B, s⟩ = .next ⟨B, agcLowStep s⟩ := rfl
theorem exec_symHigh (s : Pte B) : exec .symHigh ⟨B, s⟩ = .next ⟨B, symHighStep s⟩ := rfl
theorem exec_symLow (s : Pte B) : exec .symLow ⟨B, s⟩ = .next ⟨B, symLowStep s⟩ := rfl
theorem exec_claim (s : Pte B) : exec .claim ⟨B, s⟩ = .next ⟨B, claimStep s⟩ := rfl
theorem exec_validate (s : Pte B) : exec .validate ⟨B, s⟩ = .next ⟨B, validateStep s⟩ := rfl
theorem exec_release (s : Pte B) : exec .release ⟨B, s⟩ = .next ⟨B, releaseStep s⟩ := rfl

theorem agcLowStep_eq_symbolRow {t : Pte B} (hst : s.st = .agcLow) (hc : s.cnt = 0)
    (ht : exec (decode (W := B.lenW) (.sym (s.symByte 0))) ⟨B, s⟩ = .next ⟨B, t⟩) :
    agcLowStep s = { t with idx := 0 } := by
  have huse : s.symbolUse = .highPhase := by simp [Pte.symbolUse, hst, hc]
  rw [Pte.symByte_of_lt (by decide)] at ht
  cases hd : dec (cmdByte s.cmdQ 0) with
  | some b =>
    rw [exec_decode_sym_of_symbol hd, Pte.validSymbol_of_highPhase huse] at ht
    cases ht
    exact agcLowStep_of_symbol hc hd
  | none =>
    rw [exec_decode_sym_of_invalid hd, Pte.invalidSymbol_of_checked (.inr huse)] at ht
    cases ht
    exact agcLowStep_of_invalid hc hd

theorem symHighStep_eq_symbolRow {t : Pte B} (hst : s.st = .symHigh) (hc : s.cnt = 0)
    (ht : exec (decode (W := B.lenW) (.sym (s.symByte s.idx.toNat))) ⟨B, s⟩ = .next ⟨B, t⟩) : symHighStep s = t := by
  have huse : s.symbolUse = .lowPhase := by simp [Pte.symbolUse, hst, hc]
  cases hd : dec (s.symByte s.idx.toNat) with
  | some b =>
    rw [exec_decode_sym_of_symbol hd, Pte.validSymbol_of_lowPhase huse] at ht
    cases ht
    exact symHighStep_of_symbol hc hd
  | none =>
    rw [exec_decode_sym_of_invalid hd, Pte.invalidSymbol_of_lowPhase huse] at ht
    cases ht
    exact symHighStep_of_invalid hc hd

theorem symLowStep_eq_symbolRow {t : Pte B} (hst : s.st = .symLow) (hc : s.cnt = 0) (hi : s.idx.toNat < 24)
    (ht : exec (decode (W := B.lenW) (.sym (s.symByte (s.idx.toNat + 1)))) ⟨B, s⟩ = .next ⟨B, t⟩) :
    symLowStep s = { t with idx := s.idx + 1 } := by
  have hne : s.idx ≠ 24#5 := Pte.ne_24_of_lt hi
  have huse : s.symbolUse = .highPhase := by simp [Pte.symbolUse, hst, hc, hne]
  rw [← Pte.idxSucc_of_lt hi]
  cases hd : dec (s.symByte (s.idx.toNat + 1)) with
  | some b =>
    rw [exec_decode_sym_of_symbol hd, Pte.validSymbol_of_highPhase huse] at ht
    cases ht
    exact symLowStep_of_symbol hc hne hd
  | none =>
    rw [exec_decode_sym_of_invalid hd, Pte.invalidSymbol_of_checked (.inr huse)] at ht
    cases ht
    exact symLowStep_of_invalid hc hne hd

theorem dec_of_firstInvalid {q : CmdData} {c : Byte} (h : firstInvalid q = some c) : dec c = none := by
  simpa using List.find?_some h

theorem validateStep_eq_symbolRow {t : Pte B} {c : Byte} (hst : s.st = .validate) (hf : firstInvalid s.cmdQ = some c)
    (ht : exec (decode (W := B.lenW) (.sym c)) ⟨B, s⟩ = .next ⟨B, t⟩) : validateStep s = t := by
  have huse : s.symbolUse = .check := by simp [Pte.symbolUse, hst]
  rw [exec_decode_sym_of_invalid (dec_of_firstInvalid hf), Pte.invalidSymbol_of_checked (.inl huse)] at ht
  cases ht
  simp [validateStep, hf, Pte.raiseInvalidSymbol]

/-- Settles O13: each use of a byte is what the row of that byte does in it. -/
theorem symbolRowsAgreeWithStateSteps : Obligations.SymbolRowsAgreeWithStateSteps := by
  intro B s t
  refine ⟨fun hst hc ht => ?_, fun hst hc ht => ?_, fun hst hc hi ht => ?_, fun hst c hf ht => ?_⟩
  · rw [exec_agcLow, agcLowStep_eq_symbolRow hst hc ht]
  · rw [exec_symHigh, symHighStep_eq_symbolRow hst hc ht]
  · rw [exec_symLow, symLowStep_eq_symbolRow hst hc hi ht]
  · rw [exec_validate, validateStep_eq_symbolRow hst hf ht]

/-! A held start (R78) -/

theorem Pte.portsIn_accepted (c : Command B.lenW) (n j : Nat) : (s.accepted c n).portsIn j = s.portsIn (n + j) := by
  simp [Pte.portsIn, Pte.accepted, List.getD_eq_getElem?_getD, Nat.add_assoc]

/-- What an accepted command of the wrong length leaves is the same however often it is accepted. -/
theorem Pte.edge_iterate_of_held {c : Command B.lenW} (hrest : s.st.acceptsStart = true) (hlen : c.len ≠ 25) (m : Nat)
    (hheld : ∀ j, j < m + 1 → (s.portsIn j).rst = false ∧ (s.portsIn j).command = some c) :
    Pte.edge^[m + 1] s = s.accepted c (m + 1) := by
  induction m with
  | zero => exact Pte.edge_one_of_presents hrest (hheld 0 (by decide))
  | succ m ih =>
    have hagain : (s.accepted c (m + 1)).Presents c := by
      simpa [Pte.Presents, Pte.ports, Pte.portsIn_accepted] using hheld (m + 1) (by omega)
    have hst : (s.accepted c (m + 1)).st.acceptsStart = true := by
      simp [Pte.accepted, Pte.accept_of_wrong_length hlen, FsmState.acceptsStart]
    rw [Function.iterate_succ_apply', ih (fun j hj => hheld j (by omega)), Pte.edge_of_presents hst hagain]
    simp [Pte.accepted, Pte.accept_of_wrong_length hlen, Pte.tick, Nat.add_assoc]

/-- Settles O22: each of the cycles accepts the command anew, and leaves the same registers. -/
theorem heldStartIsRejectedEachCycle : Obligations.HeldStartIsRejectedEachCycle := by
  intro B s c m hrest hlen hm hheld
  obtain ⟨m, rfl⟩ : ∃ k, m = k + 1 := ⟨m - 1, by omega⟩
  rw [core_run_eq, Pte.edge_iterate_of_held hrest hlen m hheld, Pte.accepted, Pte.accept_of_wrong_length hlen]

/-! When the claim on the pin rises and falls (R111) -/

/-- Only CLAIM, RELEASE and the recovery write `pin_claim`. -/
theorem stateStep_pinClaim (hclaim : s.st ≠ .claim) (hrel : s.st ≠ .release) (hlegal : s.st.isIllegal = false)
    (cmd : Option (Command B.lenW)) : (stateStep cmd s).pinClaim = s.pinClaim := by
  cases hrest : s.st.acceptsStart with
  | true =>
    cases cmd with
    | none => rw [stateStep_of_rest hrest]
    | some c => rw [stateStep_of_accepts hrest, Pte.accept_pinClaim]
  | false =>
    obtain ⟨hp, hc⟩ | hexp := s.holding_or_expired
    · rw [stateStep_of_hold hp hc, Pte.holdTick_pinClaim]
    cases hst : s.st <;> rw [hst] at hexp hrest hlegal
    case idle | done | rejected => cases hrest
    case claim => exact absurd hst hclaim
    case release => exact absurd hst hrel
    case illegal => cases hlegal
    case validate =>
      rw [stateStep_of_validate hst, validateStep]
      split
      · exact s.raise_pinClaim _ _
      · rfl
    case agcHigh => rw [stateStep_of_agcHigh hst, agcHighStep_of_expired (hexp rfl)]; rfl
    case agcLow =>
      rw [stateStep_of_agcLow hst]
      obtain ⟨b, -, hs⟩ | ⟨-, hs⟩ := agcLowStep_of_expired (hexp rfl) <;> rw [hs]
      · rfl
      · exact Pte.raise_pinClaim _ _ _
    case symHigh =>
      rw [stateStep_of_symHigh hst]
      obtain ⟨b, -, hs⟩ | ⟨-, hs⟩ := symHighStep_of_expired (hexp rfl) <;> rw [hs] <;> rfl
    case symLow =>
      rw [stateStep_of_symLow hst]
      obtain ⟨b, -, -, hs⟩ | ⟨-, -, hs⟩ | ⟨-, -, hs⟩ | ⟨-, -, hs⟩ := symLowStep_of_expired (hexp rfl) <;> rw [hs]
      case inr.inl => exact Pte.raise_pinClaim _ _ _
      all_goals rfl

/-- The claim rises in CLAIM alone, where the arbiter grants it. -/
theorem Pte.granted_of_claim_rises (h : s.pinClaim = false) (h' : s.edge.pinClaim = true) :
    s.st = .claim ∧ s.ports.rst = false ∧ s.ports.pinAvail = true := by
  have hr : s.ports.rst = false := by
    by_contra hr
    rw [Pte.edge_of_reset (by simpa using hr)] at h'
    cases h'
  rw [Pte.edge_of_no_reset hr, Pte.tick_pinClaim] at h'
  have hst : s.st = .claim := by
    by_contra hne
    by_cases hrel : s.st = .release
    · rw [stateStep_of_release hrel] at h'; cases h'
    by_cases hill : s.st.isIllegal = true
    · rw [stateStep_of_illegal hill] at h'; cases h'
    rw [stateStep_pinClaim hne hrel (by simpa using hill), h] at h'
    cases h'
  refine ⟨hst, hr, ?_⟩
  by_contra ha
  rw [stateStep_of_claim hst, claimStep_of_unavail (by simpa using ha), Pte.raise_pinClaim, h] at h'
  cases h'

/-- The claim falls in RELEASE, by reset or by recovery, and then with the pin LOW. -/
theorem Pte.released_of_claim_falls (h : s.pinClaim = true) (h' : s.edge.pinClaim = false) :
    (s.st = .release ∨ s.ports.rst = true ∨ s.st.isIllegal = true) ∧ s.edge.pinOut = false := by
  cases hr : s.ports.rst with
  | true => exact ⟨.inr (.inl rfl), by rw [Pte.edge_of_reset hr]; rfl⟩
  | false =>
    rw [Pte.edge_of_no_reset hr, Pte.tick_pinClaim] at h'
    rw [Pte.edge_of_no_reset hr, Pte.tick_pinOut]
    by_cases hrel : s.st = .release
    · exact ⟨.inl hrel, by rw [stateStep_of_release hrel]; rfl⟩
    by_cases hill : s.st.isIllegal = true
    · exact ⟨.inr (.inr hill), by rw [stateStep_of_illegal hill]; rfl⟩
    by_cases hst : s.st = .claim
    · rw [stateStep_of_claim hst, claimStep] at h'
      split at h'
      · cases h'
      · rw [Pte.raise_pinClaim, h] at h'; cases h'
    rw [stateStep_pinClaim hst hrel (by simpa using hill), h] at h'
    cases h'

/-! CLAIM, VALIDATE and RELEASE (R87, R88, R93) -/

/-- A state that is no successor of itself lasts one cycle. -/
theorem Pte.edge_st_ne (hidle : s.st ≠ .idle) (h : s.st ∉ s.st.successors) : s.edge.st ≠ s.st := by
  cases hr : s.ports.rst with
  | true => rw [Pte.edge_of_reset hr]; exact hidle.symm
  | false => exact fun e => h (e ▸ Pte.edge_st_mem_successors hr)

/-- Settles O27: the grant or error entry; CLAIM is no successor of itself and has the pin unclaimed. -/
theorem claimRowStep : Obligations.ClaimRowStep := by
  intro B s
  rw [exec_claim]
  refine ⟨fun ha => ?_, fun ha hc => ?_, fun ha hc => ?_,
    fun h => ⟨s.busy_iff.mpr (.inl h), fun t hstep => ?_⟩, fun hinv h => by rw [hinv.pins.1, h]; rfl⟩
  · rw [claimStep_of_avail ha]; rfl
  · rw [claimStep_of_unavail ha, Pte.raise_of_unclaimed hc]
  · rw [claimStep_of_unavail ha, Pte.raise_of_claimed hc]
  · rw [step_eq_edge] at hstep
    cases hstep
    exact h ▸ Pte.edge_st_ne (s := s) (by simp [h]) (by rw [h]; decide)

/-- Settles O28: `firstInvalid` answers the lowest-indexed invalid byte, and nothing on a valid command. -/
theorem validateRowStep : Obligations.ValidateRowStep := by
  intro B s
  rw [exec_validate]
  refine ⟨fun k hk hn hl => ?_, fun hv => by rw [validateStep_of_valid hv]; rfl,
    fun h => s.busy_iff.mpr (.inr (.inl h)), fun hinv h => hinv.pins.pinClaim_of_claims (by rw [h]; rfl)⟩
  have hs : validateStep s = s.raise .invalidSymbol ((cmdByte s.cmdQ k).setWidth B.lenW.val) := by
    simp [validateStep, firstInvalid_of_least hk hn hl, Pte.raiseInvalidSymbol]
  rw [hs]
  exact ⟨fun hc => by rw [Pte.raise_of_claimed hc], fun hc => by rw [Pte.raise_of_unclaimed hc]⟩

/-- Settles O33: the row by `perr`; RELEASE is no successor of itself, and the claim does not rise into it. -/
theorem releaseRowStep : Obligations.ReleaseRowStep := by
  intro B s
  rw [exec_release]
  refine ⟨fun he => ?_, fun he => ?_, fun h => ⟨s.busy_iff.mpr (by simp [h]), fun t hstep => ?_⟩,
    fun t hstep ht hinv => ?_⟩
  · rw [releaseStep, if_pos he]; rfl
  · rw [releaseStep, if_neg he]; rfl
  all_goals
    rw [step_eq_edge] at hstep
    cases hstep
  · exact h ▸ Pte.edge_st_ne (s := s) (by simp [h]) (by rw [h]; decide)
  · obtain ⟨hclaim, hout⟩ := hinv.pins.edge
    rw [ht] at hclaim hout
    refine ⟨?_, hclaim, hout⟩
    by_contra hfree
    obtain ⟨hst, hr, ha⟩ := Pte.granted_of_claim_rises (by simpa using hfree) hclaim
    rw [Pte.edge_of_claim_avail hst hr ha] at ht
    cases ht

/-- Settles O50: both release the pin and keep the command; RELEASE shows a result and IDLE none. -/
theorem resetDuringRelease : Obligations.ResetDuringRelease := by
  intro B s t u _ ht hu
  rw [exec_release] at ht
  rw [exec_reset] at hu
  cases ht
  cases hu
  obtain ⟨-, hdone, herr, hcode, hinfo⟩ := Pte.status_of_idle s.resetRegs_st
  refine ⟨rfl, ?_, rfl, rfl, rfl, rfl, rfl, rfl, hdone, herr, hcode, hinfo⟩
  rw [releaseStep_st]
  split
  · exact .inl rfl
  · exact .inr rfl

/-! The pulse states (R90 to R92) -/

theorem Pte.edge_agcLow_of_agcHigh (hst : s.st = .agcHigh) (hr : s.ports.rst = false) (h : s.edge.st = .agcLow) :
    s.edge.cnt.toNat = 2210 * B.ticksPerUs.val - 1 ∧ s.edge.pinOut = false := by
  rw [Pte.edge_of_no_reset hr, stateStep_of_agcHigh hst] at h ⊢
  by_cases hc : s.cnt = 0
  · rw [agcHighStep_of_expired hc]; simp
  · rw [agcHighStep_of_counting hc, Pte.tick_st, Pte.holdTick_st, hst] at h; cases h

theorem Pte.edge_agcLow_of_symLow (hst : s.st = .symLow) (hr : s.ports.rst = false) (h : s.edge.st = .agcLow) :
    s.edge.cnt.toNat = 2210 * B.ticksPerUs.val - 1 ∧ s.edge.pinOut = false := by
  rw [Pte.edge_of_no_reset hr, stateStep_of_symLow hst] at h ⊢
  by_cases hc : s.cnt = 0
  case neg => rw [symLowStep_of_counting hc, Pte.tick_st, Pte.holdTick_st, hst] at h; cases h
  obtain ⟨b, -, -, hs⟩ | ⟨-, -, hs⟩ | ⟨-, -, hs⟩ | ⟨-, -, hs⟩ := symLowStep_of_expired hc <;> rw [hs] at h ⊢
  · cases h
  · have hpulse := Pte.raiseInvalidSymbol_not_isPulse { s with idx := s.idxSucc } (s.symByte (s.idx.toNat + 1))
    rw [← Pte.tick_st, h] at hpulse
    cases hpulse
  · simp
  · cases h

/-- Settles O30: the exit by byte 0; AGC_LOW follows only AGC_HIGH and SYM_LOW, and lasts as every pulse does. -/
theorem agcLowRowStep : Obligations.AgcLowRowStep := by
  intro B s
  rw [exec_agcLow]
  refine ⟨fun hc => ?_, fun hc h1 => ?_, fun hc h0 => ?_, fun hc hn hclaim => ?_, fun hc hn hclaim => ?_,
    fun h => s.busy_iff.mpr (by simp [h]), fun t hstep ht hne => ?_, fun h => Pte.lastsFor_of_pulse (by rw [h]; rfl)⟩
  · rw [agcLowStep_of_counting hc]; rfl
  · rw [agcLowStep_of_symbol hc ((dec_eq_one_iff _).mpr h1)]; rfl
  · rw [agcLowStep_of_symbol hc ((dec_eq_zero_iff _).mpr h0)]; rfl
  · rw [agcLowStep_of_invalid hc hn, Pte.raiseInvalidSymbol, Pte.raise_of_claimed hclaim]
  · rw [agcLowStep_of_invalid hc hn, Pte.raiseInvalidSymbol, Pte.raise_of_unclaimed hclaim]
  · rw [step_eq_edge] at hstep
    cases hstep
    have hr : s.ports.rst = false := Pte.no_reset_of_edge_st (by simp [ht])
    have hmem : .agcLow ∈ s.st.successors := ht ▸ Pte.edge_st_mem_successors hr
    have hst := (FsmState.agcLow_mem_successors hmem).resolve_left hne
    refine ⟨hst, ?_⟩
    obtain hst | hst := hst
    · exact Pte.edge_agcLow_of_agcHigh hst hr ht
    · exact Pte.edge_agcLow_of_symLow hst hr ht

/-- A symbol's phase begins with its hold count less one in `cnt` (R91, R92). -/
theorem Pte.pulseBegins_symHigh_iff (hst : s.st = .symHigh) (hi : s.idx.toNat ≤ 24) : s.PulseBegins ↔
    ∃ b, dec (cmdByte s.cmdQ s.idx.toNat) = some b ∧ s.cnt.toNat + 1 = hiDur B.ticksPerUs b := by
  simp [Pte.PulseBegins, Pte.pulseCount, hst, Pte.symByte_of_lt (Nat.lt_succ_of_le hi), eq_comm]

theorem Pte.pulseBegins_symLow_iff (hst : s.st = .symLow) (hi : s.idx.toNat ≤ 24) : s.PulseBegins ↔
    ∃ b, dec (cmdByte s.cmdQ s.idx.toNat) = some b ∧ s.cnt.toNat + 1 = loDur B.ticksPerUs b := by
  simp [Pte.PulseBegins, Pte.pulseCount, hst, Pte.symByte_of_lt (Nat.lt_succ_of_le hi), eq_comm]

/-- Settles O31: the exit by byte `idx`; under the invariant a step that enters SYM_HIGH begins its pulse. -/
theorem symHighRowStep : Obligations.SymHighRowStep := by
  intro B s
  rw [exec_symHigh]
  refine ⟨fun hc => ?_, fun hc hi h1 => ?_, fun hc hi h0 => ?_, fun hc => ?_,
    fun h => s.busy_iff.mpr (by simp [h]), fun t hinv hstep ht hne => ?_,
    fun h => Pte.lastsFor_of_pulse (by rw [h]; rfl)⟩
  · rw [symHighStep_of_counting hc]; rfl
  · rw [symHighStep_of_symbol hc (by rw [Pte.symByte_of_lt hi]; exact (dec_eq_one_iff _).mpr h1)]; rfl
  · rw [symHighStep_of_symbol hc (by rw [Pte.symByte_of_lt hi]; exact (dec_eq_zero_iff _).mpr h0)]; rfl
  · obtain ⟨b, -, hs⟩ | ⟨-, hs⟩ := symHighStep_of_expired hc <;> rw [hs] <;> exact ⟨_, rfl⟩
  · rw [step_eq_edge] at hstep
    cases hstep
    obtain ⟨-, hidx, -⟩ := hinv.edge.range
    have hbegin := hinv.edge_begins (by rw [ht]; rfl) (by rw [ht]; exact hne.symm)
    exact ⟨by rw [hinv.edge.pins.2, ht]; rfl, (Pte.pulseBegins_symHigh_iff ht hidx).mp hbegin⟩

/-- Above index 24 SYM_LOW reads a free byte, and either begins its HIGH phase or raises (log entry 7). -/
theorem symLowStep_of_no_byte (hc : s.cnt = 0) (hi : 24 < s.idx.toNat) :
    ((symLowStep s).st = .symHigh ∨ (symLowStep s).perr = .invalidSymbol) ∧ (symLowStep s).rep = s.rep ∧
      (symLowStep s).pinClaim = s.pinClaim := by
  have hne : s.idx ≠ 24#5 := by rintro e; simp [e] at hi
  cases hd : dec (s.symByte (s.idx.toNat + 1)) with
  | some b => rw [symLowStep_of_symbol hc hne hd]; exact ⟨.inl rfl, rfl, rfl⟩
  | none =>
    rw [symLowStep_of_invalid hc hne hd]
    exact ⟨.inr (s.raise_perr _ _), s.raise_rep _ _, s.raise_pinClaim _ _⟩

/-- Settles O32: the exit by `idx`, the next byte and `rep`; under the invariant a step that enters SYM_LOW begins its
pulse. -/
theorem symLowRowStep : Obligations.SymLowRowStep := by
  intro B s
  rw [exec_symLow]
  refine ⟨fun hc => ?_, fun hc hi h1 => ?_, fun hc hi h0 => ?_, fun hc hi hn hclaim => ?_, fun hc hi hn hclaim => ?_,
    fun hc hi => ?_, fun hc hi hr h7 => ?_, fun hc hi hr => ?_, fun hc hi hr => ?_,
    fun h => s.busy_iff.mpr (by simp [h]), fun t hinv hstep ht hne => ?_,
    fun h => Pte.lastsFor_of_pulse (by rw [h]; rfl)⟩
  · rw [symLowStep_of_counting hc]; rfl
  · rw [symLowStep_of_symbol (b := .one) hc (Pte.ne_24_of_lt hi)
      (by rw [Pte.symByte_succ_of_lt hi]; exact (dec_eq_one_iff _).mpr h1), Pte.idxSucc_of_lt hi]
    rfl
  · rw [symLowStep_of_symbol (b := .zero) hc (Pte.ne_24_of_lt hi)
      (by rw [Pte.symByte_succ_of_lt hi]; exact (dec_eq_zero_iff _).mpr h0), Pte.idxSucc_of_lt hi]
    rfl
  · rw [← Pte.symByte_succ_of_lt hi] at hn ⊢
    rw [symLowStep_of_invalid hc (Pte.ne_24_of_lt hi) hn, Pte.idxSucc_of_lt hi, Pte.raiseInvalidSymbol,
      Pte.raise_of_claimed hclaim]
  · rw [← Pte.symByte_succ_of_lt hi] at hn ⊢
    rw [symLowStep_of_invalid hc (Pte.ne_24_of_lt hi) hn, Pte.idxSucc_of_lt hi, Pte.raiseInvalidSymbol,
      Pte.raise_of_unclaimed hclaim]
  · obtain ⟨hst, hrep, hclaim⟩ := symLowStep_of_no_byte hc hi
    exact ⟨_, rfl, hst, hrep, symLowStep_cmdQ s, hclaim⟩
  · have hsucc : s.repSucc = s.rep + 1 := if_neg h7
    rw [symLowStep_of_repetition hc hi hr, hsucc]
    rfl
  · rw [symLowStep_of_repetition hc hi (by simp [hr])]
    exact ⟨s.repSucc, rfl⟩
  · rw [symLowStep_of_last hc hi hr]; rfl
  · rw [step_eq_edge] at hstep
    cases hstep
    obtain ⟨-, hidx, -⟩ := hinv.edge.range
    have hbegin := hinv.edge_begins (by rw [ht]; rfl) (by rw [ht]; exact hne.symm)
    exact ⟨by rw [hinv.edge.pins.2, ht]; rfl, (Pte.pulseBegins_symLow_iff ht hidx).mp hbegin⟩

end Machine
end Sys2Proof
end

section
/-! PROOFS. The sequencer and timing families, the pulses: what a test bench records of a run (R106, R120), and a relation
that says of a run of whole pulses which pulses it records, how long it takes and where it ends. -/

namespace Sys2Proof.Machine

variable {B : Build} {s t : Pte B}

/-! Recording (log entry 19) -/

/-- What is recorded is the sample of each cycle's state. -/
theorem recordFor_eq (n : Nat) (s : Pte B) :
    recordFor n ⟨B, s⟩ = (List.range n).map (fun j => (Pte.edge^[j] s).outputs.sample) := by
  induction n generalizing s with
  | zero => rfl
  | succ n ih =>
    have hrec : recordFor (n + 1) ⟨B, s⟩ = s.outputs.sample :: recordFor n ⟨B, s.edge⟩ := by
      rw [recordFor, statesFor_succ]; rfl
    rw [hrec, ih, List.range_succ_eq_map, List.map_cons, List.map_map]
    rfl

theorem recordFor_add (m n : Nat) (s : Pte B) :
    recordFor (m + n) ⟨B, s⟩ = recordFor m ⟨B, s⟩ ++ recordFor n ⟨B, Pte.edge^[m] s⟩ := by
  simp only [recordFor_eq, List.range_add, List.map_append, List.map_map]
  congr 2
  funext j
  rw [Function.comp_apply, Nat.add_comm m j, Function.iterate_add_apply]

@[simp] theorem isPulseCode_code (st : FsmState) : isPulseCode st.code = st.isPulse := by simp [isPulseCode]

theorem Pte.sample_inPulse (s : Pte B) : s.outputs.sample.inPulse = (s.pinClaim && s.st.isPulse) := by
  simp [Sample.inPulse, Outputs.sample, Pte.outputs]

/-- Cycles outside the pulse states record nothing. -/
theorem pulsesOf_append_of_no_pulse {os : List Sample} (h : ∀ o ∈ os, o.inPulse = false) (rest : List Sample) :
    pulsesOf (os ++ rest) = pulsesOf rest := by
  induction os with
  | nil => rfl
  | cons o os ih =>
    have ho : o.inPulse = false := h o List.mem_cons_self
    have hos : pulsesOf (os ++ rest) = pulsesOf rest := ih fun o' ho' => h o' (List.mem_cons_of_mem o ho')
    simp [pulsesOf, recordCycle, ho, hos]

theorem pulsesOf_recordFor_of_no_pulse {n : Nat} (h : ∀ j, j < n → (Pte.edge^[j] s).st.isPulse = false)
    (rest : List Sample) : pulsesOf (recordFor n ⟨B, s⟩ ++ rest) = pulsesOf rest := by
  refine pulsesOf_append_of_no_pulse (fun o ho => ?_) rest
  simp only [recordFor_eq, List.mem_map, List.mem_range] at ho
  obtain ⟨j, hj, rfl⟩ := ho
  rw [Pte.sample_inPulse, h j hj, Bool.and_false]

theorem pulsesOf_recordFor_eq_nil {n : Nat} (h : ∀ j, j < n → (Pte.edge^[j] s).st.isPulse = false) :
    pulsesOf (recordFor n ⟨B, s⟩) = [] := by
  simpa [pulsesOf] using pulsesOf_recordFor_of_no_pulse h []

/-- A cycle that the next one does not go on with is a pulse of its own, so far (R106). -/
theorem recordCycle_of_ne {o : Sample} {next : Option Sample} (ho : o.inPulse = true)
    (hnext : ∀ o', next = some o' → o'.stateO ≠ o.stateO) (ps : List Pulse) :
    recordCycle o next ps = (o.pinOut, 1) :: ps := by
  unfold recordCycle
  rw [if_pos ho]
  split
  next o' _ _ _ => simp [hnext o' rfl]
  next => rfl

theorem recordCycle_same {o : Sample} (ho : o.inPulse = true) (level : Bool) (n : Nat) (ps : List Pulse) :
    recordCycle o (some o) ((level, n) :: ps) = (level, n + 1) :: ps := by
  simp [recordCycle, ho]

/-- A run of one sample of a pulse state is one pulse, when what follows it is no cycle of the same state (R106). -/
theorem pulsesOf_replicate_append {o : Sample} {rest : List Sample} (ho : o.inPulse = true)
    (hrest : ∀ o', rest.head? = some o' → o'.stateO ≠ o.stateO) (n : Nat) :
    pulsesOf (List.replicate (n + 1) o ++ rest) = (o.pinOut, n + 1) :: pulsesOf rest := by
  induction n with
  | zero => exact recordCycle_of_ne ho hrest _
  | succ n ih =>
    rw [List.replicate_succ, List.cons_append, pulsesOf, ih]
    exact recordCycle_same ho _ _ _

/-! Runs of whole pulses -/

@[simp] theorem totalCycles_nil : totalCycles [] = 0 := rfl
@[simp] theorem totalCycles_cons (p : Pulse) (ps : List Pulse) : totalCycles (p :: ps) = p.2 + totalCycles ps := by
  simp [totalCycles]
@[simp] theorem totalCycles_append (ps qs : List Pulse) : totalCycles (ps ++ qs) = totalCycles ps + totalCycles qs := by
  simp [totalCycles]

/-- From `s` the pulses `ps` are emitted, one after the other, and `t` is the state in the cycle after them. While they
last the state is a pulse state with the command and the claim of `s`; with the pin claimed they are recorded as `ps`,
whatever comes after them. -/
structure Pte.Plays (ps : List Pulse) (s t : Pte B) : Prop where
  reaches : Pte.edge^[totalCycles ps] s = t
  pulsing : ∀ j, j < totalCycles ps → (Pte.edge^[j] s).st.isPulse = true ∧ (Pte.edge^[j] s).cmdQ = s.cmdQ ∧
    (Pte.edge^[j] s).pinClaim = s.pinClaim
  cmdQ : t.cmdQ = s.cmdQ
  pinClaim : t.pinClaim = s.pinClaim
  records : s.pinClaim = true → ∀ k,
    pulsesOf (recordFor (totalCycles ps + k) ⟨B, s⟩) = ps ++ pulsesOf (recordFor k ⟨B, t⟩)

theorem Pte.Plays.nil (s : Pte B) : Pte.Plays [] s s where
  reaches := rfl
  pulsing := nofun
  cmdQ := rfl
  pinClaim := rfl
  records := fun _ k => by simp

theorem Pte.Plays.append {ps qs : List Pulse} {u : Pte B} (h : Pte.Plays ps s t) (h' : Pte.Plays qs t u) :
    Pte.Plays (ps ++ qs) s u where
  reaches := by
    rw [totalCycles_append, Nat.add_comm, Function.iterate_add_apply, h.reaches, h'.reaches]
  pulsing := fun j hj => by
    by_cases hlt : j < totalCycles ps
    · exact h.pulsing j hlt
    obtain ⟨i, rfl⟩ : ∃ i, j = i + totalCycles ps := ⟨j - totalCycles ps, by omega⟩
    rw [Function.iterate_add_apply, h.reaches, ← h.cmdQ, ← h.pinClaim]
    exact h'.pulsing i (by rw [totalCycles_append] at hj; omega)
  cmdQ := h'.cmdQ.trans h.cmdQ
  pinClaim := h'.pinClaim.trans h.pinClaim
  records := fun hclaim k => by
    rw [totalCycles_append, Nat.add_assoc, h.records hclaim, h'.records (h.pinClaim.trans hclaim), List.append_assoc]

/-! One pulse -/

/-- `n` cycles later as the environment counts them, the registers as they are. -/
def Pte.passed (n : Nat) (s : Pte B) : Pte B := { s with driven := s.driven.drop n, cycle := s.cycle + n }

@[simp] theorem Pte.passed_passed (m n : Nat) (s : Pte B) : (s.passed m).passed n = s.passed (m + n) := by
  simp [Pte.passed, Nat.add_assoc]

theorem Pte.tick_passed (n : Nat) (s : Pte B) : (s.passed n).tick = s.passed (n + 1) := by
  simp [Pte.passed, Pte.tick, Nat.add_assoc]

theorem Pte.NoResetFor.passed {m n : Nat} (h : s.NoResetFor (m + n)) : (s.passed m).NoResetFor n := by
  intro j hj
  have hports : (s.passed m).portsIn j = s.portsIn (m + j) := by
    simp [Pte.portsIn, Pte.passed, List.getD_eq_getElem?_getD, Nat.add_assoc]
  rw [hports]
  exact h (m + j) (by omega)

/-- The last cycle of the pulse that `s` is in: `cnt` has counted down to 0. -/
def Pte.lastCycle (s : Pte B) : Pte B := { s with cnt := 0 }.passed s.cnt.toNat

theorem Pte.afterHold_eq_lastCycle (s : Pte B) : s.afterHold s.cnt.toNat = s.lastCycle := by
  have hzero : s.cnt - BitVec.ofNat _ s.cnt.toNat = 0 := s.afterHold_cnt_eq_zero
  rw [Pte.afterHold, hzero]
  rfl

/-- Without a reset a pulse counts down to its last cycle (R62). -/
theorem Pte.edge_iterate_to_lastCycle (hp : s.st.isPulse = true) (hr : s.NoResetFor s.cnt.toNat) :
    Pte.edge^[s.cnt.toNat] s = s.lastCycle :=
  (Pte.edge_iterate_of_pulse hp hr le_rfl).trans s.afterHold_eq_lastCycle

theorem FsmState.not_acceptsStart_of_isPulse {st : FsmState} (h : st.isPulse = true) : st.acceptsStart = false := by
  cases st <;> simp_all [FsmState.isPulse, FsmState.acceptsStart]

theorem FsmState.not_illegal_of_isPulse {st : FsmState} (h : st.isPulse = true) : st.isIllegal = false := by
  cases st <;> simp_all [FsmState.isPulse, FsmState.isIllegal]

/-- The cycle after a pulse: the step of its last cycle (R116). -/
theorem Pte.edge_iterate_after_pulse (hp : s.st.isPulse = true) (hr : s.NoResetFor (s.cnt.toNat + 1)) :
    Pte.edge^[s.cnt.toNat + 1] s = (stateStep none s.lastCycle).tick := by
  have hlast := Pte.edge_iterate_to_lastCycle hp (hr.mono (by omega))
  have hnow : (Pte.edge^[s.cnt.toNat] s).ports.rst = false := hr.iterate_edge.now
  rw [hlast] at hnow
  rw [Function.iterate_succ_apply', hlast, Pte.edge_of_no_reset hnow,
    stateStep_of_ignores (s := s.lastCycle) (FsmState.not_acceptsStart_of_isPulse hp)]

/-- The cycles of a pulse are recorded as so many samples of its first one. -/
theorem recordFor_pulse (hp : s.st.isPulse = true) (hr : s.NoResetFor (s.cnt.toNat + 1)) :
    recordFor (s.cnt.toNat + 1) ⟨B, s⟩ = List.replicate (s.cnt.toNat + 1) s.outputs.sample := by
  rw [recordFor_eq, List.eq_replicate_iff]
  refine ⟨by simp, fun o ho => ?_⟩
  obtain ⟨j, hj, rfl⟩ := List.mem_map.mp ho
  rw [List.mem_range] at hj
  rw [Pte.edge_iterate_of_pulse hp (hr.mono (by omega)) (by omega)]
  rfl

/-- A pulse state with `n - 1` in `cnt` emits one pulse of `n` cycles; `t` has the registers after it. -/
theorem Pte.plays_pulse {n : Nat} (hp : s.st.isPulse = true) (hn : s.cnt.toNat + 1 = n) (hr : s.NoResetFor n)
    (ht : stateStep none s.lastCycle = t.passed s.cnt.toNat) : Pte.Plays [(s.pinOut, n)] s (t.passed n) := by
  subst hn
  have hreach : Pte.edge^[s.cnt.toNat + 1] s = t.passed (s.cnt.toNat + 1) := by
    rw [Pte.edge_iterate_after_pulse hp hr, ht, Pte.tick_passed]
  exact {
    reaches := hreach
    pulsing := fun j hj => by
      rw [totalCycles_cons, totalCycles_nil] at hj
      rw [Pte.edge_iterate_of_pulse hp (hr.mono (by omega)) (by omega)]
      exact ⟨hp, rfl, rfl⟩
    cmdQ := (congrArg Pte.cmdQ ht).symm.trans (stateStep_none_cmdQ s.lastCycle)
    pinClaim := by
      have hclaim : s.st ≠ .claim := by rintro e; rw [e] at hp; cases hp
      have hrel : s.st ≠ .release := by rintro e; rw [e] at hp; cases hp
      exact (congrArg Pte.pinClaim ht).symm.trans
        (stateStep_pinClaim (s := s.lastCycle) hclaim hrel (FsmState.not_illegal_of_isPulse hp) none)
    records := fun hclaim k => by
      have hin : s.outputs.sample.inPulse = true := by rw [Pte.sample_inPulse, hclaim, hp]; rfl
      have hne : (t.passed (s.cnt.toNat + 1)).st ≠ s.st := hreach ▸ Pte.edge_iterate_leaves_pulse hp hr
      rw [totalCycles_cons, totalCycles_nil, Nat.add_zero, recordFor_add, recordFor_pulse hp hr, hreach]
      refine pulsesOf_replicate_append hin (fun o ho he => hne ?_) _
      cases k with
      | zero => cases ho
      | succ k =>
        rw [recordFor_eq, List.range_succ_eq_map] at ho
        cases ho
        exact (FsmState.ofCode_code _).symm.trans ((congrArg FsmState.ofCode he).trans (FsmState.ofCode_code _)) }

end Sys2Proof.Machine
end

section
/-! PROOFS. The sequencer family, the pulse list that the protocol asks for (R99): how many pulses, cycles and level periods
it has for a valid command (R100, R102, R103). -/

namespace Sys2Proof.Machine

variable {T : Ticks} {q : CmdData}

/-! A symbol and a repetition -/

theorem symbolPulses_of_symbol {c : Byte} {b : Symbol} (h : dec c = some b) :
    symbolPulses T c = [(true, hiDur T b), (false, loDur T b)] := by simp [symbolPulses, h]

/-- A valid command has a symbol at each of its 25 indices. -/
theorem ValidCommand.symbol {i : Nat} (h : ValidCommand q) (hi : i < 25) : ∃ b, dec (cmdByte q i) = some b :=
  Option.ne_none_iff_exists'.mp (h i hi)

/-- The pulses of the first `n` symbols of a command, in index order (R98). -/
def firstSymbols (T : Ticks) (q : CmdData) (n : Nat) : List Pulse :=
  (List.range n).flatMap (fun i => symbolPulses T (cmdByte q i))

@[simp] theorem firstSymbols_zero : firstSymbols T q 0 = [] := rfl
theorem firstSymbols_succ (n : Nat) :
    firstSymbols T q (n + 1) = firstSymbols T q n ++ symbolPulses T (cmdByte q n) := by
  simp [firstSymbols, List.range_succ, List.flatMap_append]

theorem repetitionPulses_eq : repetitionPulses T q = (false, holdCount T .agcL) :: firstSymbols T q 25 := rfl

/-- A symbol takes the same time whichever it is (R59). -/
theorem totalCycles_symbolPulses {c : Byte} {b : Symbol} (h : dec c = some b) :
    totalCycles (symbolPulses T c) = 1525 * T.val := by
  rw [symbolPulses_of_symbol h, totalCycles_cons, totalCycles_cons, totalCycles_nil, Nat.add_zero]
  exact hiDur_add_loDur T b

theorem totalCycles_firstSymbols (h : ValidCommand q) {n : Nat} (hn : n ≤ 25) :
    totalCycles (firstSymbols T q n) = n * (1525 * T.val) := by
  induction n with
  | zero => simp
  | succ n ih =>
    obtain ⟨b, hb⟩ := h.symbol (i := n) (by omega)
    rw [firstSymbols_succ, totalCycles_append, ih (by omega), totalCycles_symbolPulses hb, Nat.add_one_mul n]

theorem length_firstSymbols (h : ValidCommand q) {n : Nat} (hn : n ≤ 25) : (firstSymbols T q n).length = 2 * n := by
  induction n with
  | zero => rfl
  | succ n ih =>
    obtain ⟨b, hb⟩ := h.symbol (i := n) (by omega)
    rw [firstSymbols_succ, List.length_append, ih (by omega), symbolPulses_of_symbol hb]
    rfl

theorem length_repetitionPulses (h : ValidCommand q) : (repetitionPulses T q).length = 51 := by
  rw [repetitionPulses_eq, List.length_cons, length_firstSymbols h le_rfl]

theorem totalCycles_repetitionPulses (h : ValidCommand q) : totalCycles (repetitionPulses T q) = 40335 * T.val := by
  rw [repetitionPulses_eq, totalCycles_cons, totalCycles_firstSymbols h le_rfl, holdCount_agcL]
  omega

/-! The whole transmission -/

theorem totalCycles_flatten_replicate (n : Nat) (ps : List Pulse) :
    totalCycles (List.replicate n ps).flatten = n * totalCycles ps := by
  induction n with
  | zero => simp
  | succ n ih => rw [List.replicate_succ, List.flatten_cons, totalCycles_append, ih, Nat.succ_mul, Nat.add_comm]

theorem totalCycles_framePulses (h : ValidCommand q) : totalCycles (framePulses T q) = frameCycles T := by
  rw [framePulses, totalCycles_cons, totalCycles_flatten_replicate, totalCycles_repetitionPulses h, holdCount_agcH,
    Config.nRep, frameCycles]
  omega

theorem length_framePulses (h : ValidCommand q) : (framePulses T q).length = 307 := by
  simp [framePulses, length_repetitionPulses h, Config.nRep]

/-! Level periods (R103): two lists of pulses make the periods of both, less one where they meet at one level. -/

theorem levelPeriods_cons_eq (p : Pulse) (ps : List Pulse) : ∃ n rest, levelPeriods (p :: ps) = (p.1, n) :: rest := by
  rw [levelPeriods]
  split
  · exact ⟨p.2, [], rfl⟩
  · split
    · exact ⟨_, _, rfl⟩
    · exact ⟨p.2, _, rfl⟩

theorem length_levelPeriods_cons_cons (p p' : Pulse) (ps : List Pulse) :
    (levelPeriods (p :: p' :: ps)).length + (if p.1 = p'.1 then 1 else 0) = (levelPeriods (p' :: ps)).length + 1 := by
  obtain ⟨n, rest, h⟩ := levelPeriods_cons_eq p' ps
  rw [levelPeriods, h]
  by_cases hl : p.1 = p'.1
  · simp [hl]
  · simp [hl, Ne.symm hl]

/-- The list begins with the level `first`, ends with the level `last` and makes `n` level periods. -/
structure MakesPeriods (ps : List Pulse) (first last : Bool) (n : Nat) : Prop where
  head : ps.head?.map Prod.fst = some first
  last : ps.getLast?.map Prod.fst = some last
  periods : (levelPeriods ps).length = n

theorem makesPeriods_singleton (p : Pulse) : MakesPeriods [p] p.1 p.1 1 := ⟨rfl, rfl, rfl⟩

theorem MakesPeriods.cons {ps : List Pulse} {first last : Bool} {n : Nat} (h : MakesPeriods ps first last n) (p : Pulse) :
    MakesPeriods (p :: ps) p.1 last (n + 1 - if p.1 = first then 1 else 0) := by
  cases ps with
  | nil => cases h.head
  | cons p' ps =>
    have hfirst : p'.1 = first := Option.some.inj h.head
    have hlen := length_levelPeriods_cons_cons p p' ps
    rw [h.periods, hfirst] at hlen
    exact ⟨rfl, by rw [List.getLast?_cons_cons]; exact h.last, by omega⟩

theorem MakesPeriods.append {ps qs : List Pulse} {a b c d : Bool} {m n : Nat} (h : MakesPeriods ps a b m)
    (h' : MakesPeriods qs c d n) : MakesPeriods (ps ++ qs) a d (m + n - if b = c then 1 else 0) := by
  induction ps generalizing a m with
  | nil => cases h.head
  | cons p ps ih =>
    obtain rfl : p.1 = a := Option.some.inj h.head
    cases ps with
    | nil =>
      obtain rfl : p.1 = b := Option.some.inj h.last
      obtain rfl : 1 = m := h.periods
      rw [Nat.add_comm 1 n]
      exact h'.cons p
    | cons p' ps =>
      have htail : MakesPeriods (p' :: ps) p'.1 b (levelPeriods (p' :: ps)).length :=
        ⟨rfl, by rw [← h.last, List.getLast?_cons_cons], rfl⟩
      have hpos : (levelPeriods (p' :: ps)).length ≠ 0 := by
        obtain ⟨_, _, he⟩ := levelPeriods_cons_eq p' ps
        simp [he]
      have hlen := length_levelPeriods_cons_cons p p' ps
      rw [h.periods] at hlen
      rw [List.cons_append]
      convert (ih htail).cons p using 1
      split_ifs at hlen ⊢ <;> omega

theorem makesPeriods_firstSymbols (h : ValidCommand q) {n : Nat} (hn : n + 1 ≤ 25) :
    MakesPeriods (firstSymbols T q (n + 1)) true false (2 * (n + 1)) := by
  induction n with
  | zero =>
    obtain ⟨b, hb⟩ := h.symbol (i := 0) (by decide)
    rw [firstSymbols_succ, symbolPulses_of_symbol hb]
    exact (makesPeriods_singleton (false, loDur T b)).cons (true, hiDur T b)
  | succ n ih =>
    obtain ⟨b, hb⟩ := h.symbol (i := n + 1) (by omega)
    rw [firstSymbols_succ, symbolPulses_of_symbol hb]
    exact (ih (by omega)).append ((makesPeriods_singleton (false, loDur T b)).cons (true, hiDur T b))

theorem makesPeriods_repetitionPulses (h : ValidCommand q) : MakesPeriods (repetitionPulses T q) false false 51 :=
  (makesPeriods_firstSymbols h le_rfl).cons _

/-- Repetitions meet at LOW, so each after the first makes one period less (R103). -/
theorem makesPeriods_repetitions (h : ValidCommand q) (n : Nat) :
    MakesPeriods (List.replicate (n + 1) (repetitionPulses T q)).flatten false false (50 * n + 51) := by
  induction n with
  | zero => simpa using makesPeriods_repetitionPulses h
  | succ n ih =>
    rw [List.replicate_succ, List.flatten_cons]
    convert (makesPeriods_repetitionPulses h).append ih using 1
    simp only [if_true]
    omega

theorem makesPeriods_framePulses (h : ValidCommand q) : MakesPeriods (framePulses T q) true false 302 :=
  (makesPeriods_repetitions h 5).cons _

/-- Every pulse of a symbol has the hold count of a category (R61). -/
theorem holdCount_of_mem_symbolPulses {c : Byte} {p : Pulse} (h : p ∈ symbolPulses T c) : ∃ k, p.2 = holdCount T k := by
  cases hd : dec c with
  | none => simp [symbolPulses, hd] at h
  | some b =>
    rw [symbolPulses_of_symbol hd] at h
    obtain rfl | rfl : p = (true, hiDur T b) ∨ p = (false, loDur T b) := by simpa using h
    · exact ⟨highCategory b, rfl⟩
    · exact ⟨lowCategory b, rfl⟩

theorem holdCount_of_mem_framePulses {p : Pulse} (h : p ∈ framePulses T q) : ∃ k, p.2 = holdCount T k := by
  simp only [framePulses, List.mem_cons, List.mem_flatten, List.mem_replicate, repetitionPulses] at h
  obtain rfl | ⟨l, ⟨-, rfl⟩, hp⟩ := h
  · exact ⟨.agcH, rfl⟩
  obtain rfl | hp := List.mem_cons.mp hp
  · exact ⟨.agcL, rfl⟩
  · obtain ⟨i, -, hp⟩ := List.mem_flatMap.mp hp
    exact holdCount_of_mem_symbolPulses hp

/-- Settles O57: a symbol has two pulses and one period whichever it is, and level periods merge where repetitions
meet. -/
theorem frameHas307Pulses : Obligations.FrameHas307Pulses := by
  intro T q h
  exact ⟨length_framePulses h, length_repetitionPulses h, totalCycles_repetitionPulses h, totalCycles_framePulses h,
    (makesPeriods_framePulses h).periods, fun p => holdCount_of_mem_framePulses⟩

end Sys2Proof.Machine
end

section
/-! PROOFS. The sequencer and timing families, a symbol, a repetition and the frame as they are emitted: what each pulse
state leads to (R89 to R92), and so how long each takes and what it records (R59, R99, R102). -/

namespace Sys2Proof.Machine

variable {B : Build} {s : Pte B}

/-! The pulses of a transmission, one by one -/

/-- The first cycle of a pulse of `n` cycles in the state `st`, at repetition `rep` and symbol `idx`. RELEASE, which is no
pulse, lasts one cycle, with `cnt` 0. -/
def Pte.atStart (st : FsmState) (rep : BitVec 3) (idx : BitVec 5) (n : Nat) (s : Pte B) : Pte B :=
  { s with st := st, rep := rep, idx := idx, cnt := BitVec.ofNat _ (n - 1), pinOut := st.isHigh }

/-- The symbol at an index of a valid command. -/
def symbolAt (q : CmdData) (i : Nat) : Symbol := (dec (cmdByte q i)).getD .zero

theorem ValidCommand.dec_eq {q : CmdData} {i : Nat} (h : ValidCommand q) (hi : i < 25) :
    dec (cmdByte q i) = some (symbolAt q i) := by
  obtain ⟨b, hb⟩ := h.symbol hi
  rw [symbolAt, hb, Option.getD_some]

theorem Pte.dec_symByte {i : Nat} (h : ValidCommand s.cmdQ) (hi : i < 25) :
    dec (s.symByte i) = some (symbolAt s.cmdQ i) := by
  rw [Pte.symByte_of_lt hi, h.dec_eq hi]

/-- The first cycle of symbol `i` in repetition `rep`. -/
def Pte.symbolStart (rep : BitVec 3) (i : Nat) (s : Pte B) : Pte B :=
  s.atStart .symHigh rep (BitVec.ofNat 5 i) (hiDur B.ticksPerUs (symbolAt s.cmdQ i))

/-- What follows the symbol at `idx`: the next symbol, the AGC-low pulse of the next repetition, or RELEASE (R92). -/
def Pte.afterSymbol (s : Pte B) : Pte B :=
  if s.idx.toNat < 24 then s.symbolStart s.rep (s.idx.toNat + 1)
  else if s.rep.toNat < 5 then s.atStart .agcLow (s.rep + 1) 0 (holdCount B.ticksPerUs .agcL)
  else s.atStart .release s.rep s.idx 1

section
variable {n : Nat} (hn : s.cnt.toNat + 1 = n) (hr : s.NoResetFor n)
include hn hr

theorem Pte.plays_agcHigh (hst : s.st = .agcHigh) : Pte.Plays [(s.pinOut, n)] s
    ((s.atStart .agcLow 0 s.idx (holdCount B.ticksPerUs .agcL)).passed n) := by
  refine Pte.plays_pulse (by rw [hst]; rfl) hn hr ?_
  rw [stateStep_of_agcHigh (s := s.lastCycle) hst, agcHighStep_of_expired (s := s.lastCycle) rfl]
  rfl

theorem Pte.plays_symHigh {b : Symbol} (hst : s.st = .symHigh) (hi : s.idx.toNat < 25)
    (hd : dec (cmdByte s.cmdQ s.idx.toNat) = some b) :
    Pte.Plays [(s.pinOut, n)] s ((s.atStart .symLow s.rep s.idx (loDur B.ticksPerUs b)).passed n) := by
  refine Pte.plays_pulse (by rw [hst]; rfl) hn hr ?_
  rw [stateStep_of_symHigh (s := s.lastCycle) hst, symHighStep_of_symbol (s := s.lastCycle) rfl
    ((congrArg dec (Pte.symByte_of_lt (s := s.lastCycle) hi)).trans hd)]
  rfl

variable (hv : ValidCommand s.cmdQ)
include hv

theorem Pte.plays_agcLow (hst : s.st = .agcLow) : Pte.Plays [(s.pinOut, n)] s ((s.symbolStart s.rep 0).passed n) := by
  refine Pte.plays_pulse (by rw [hst]; rfl) hn hr ?_
  rw [stateStep_of_agcLow (s := s.lastCycle) hst,
    agcLowStep_of_symbol (s := s.lastCycle) rfl (hv.dec_eq (by decide))]
  rfl

/-- The three exits of SYM_LOW (R92). -/
theorem Pte.plays_symLow (hst : s.st = .symLow) (hi : s.idx.toNat ≤ 24) (hrep : s.rep.toNat ≤ 5) :
    Pte.Plays [(s.pinOut, n)] s (s.afterSymbol.passed n) := by
  refine Pte.plays_pulse (by rw [hst]; rfl) hn hr ?_
  rw [stateStep_of_symLow (s := s.lastCycle) hst, Pte.afterSymbol]
  split_ifs with hlt hrep'
  · have hidx : s.lastCycle.idxSucc = BitVec.ofNat 5 (s.idx.toNat + 1) := by
      rw [Pte.idxSucc_of_lt (s := s.lastCycle) hlt, BitVec.ofNat_add, BitVec.ofNat_toNat, BitVec.setWidth_eq]
      rfl
    rw [symLowStep_of_symbol (s := s.lastCycle) rfl (Pte.ne_24_of_lt hlt)
      (Pte.dec_symByte (s := s.lastCycle) hv (Nat.succ_lt_succ hlt)), hidx]
    rfl
  · have h24 : s.idx = 24#5 := by bv_omega
    have hsucc : s.lastCycle.repSucc = s.rep + 1 := if_neg (by rintro e; simp [show s.rep = 7#3 from e] at hrep')
    rw [symLowStep_of_repetition (s := s.lastCycle) rfl h24 (by rintro e; simp [show s.rep = 5#3 from e] at hrep'), hsucc]
    rfl
  · rw [symLowStep_of_last (s := s.lastCycle) rfl (show s.idx = 24#5 by bv_omega) (show s.rep = 5#3 by bv_omega)]
    rfl

end

/-! A symbol -/

/-! What comes first, the passing of cycles or the registers, makes no difference. -/

theorem Pte.atStart_passed (m : Nat) (st : FsmState) (rep : BitVec 3) (idx : BitVec 5) (n : Nat) :
    (s.passed m).atStart st rep idx n = (s.atStart st rep idx n).passed m := rfl

theorem Pte.symbolStart_passed (m : Nat) (rep : BitVec 3) (i : Nat) :
    (s.passed m).symbolStart rep i = (s.symbolStart rep i).passed m := rfl

theorem Pte.afterSymbol_passed (m : Nat) : (s.passed m).afterSymbol = s.afterSymbol.passed m := by
  simp only [Pte.afterSymbol, apply_ite (Pte.passed m)]
  rfl

theorem Pte.toNat_cnt_atStart (s : Pte B) (st : FsmState) (rep : BitVec 3) (idx : BitVec 5) (k : PulseCategory) :
    (s.atStart st rep idx (holdCount B.ticksPerUs k)).cnt.toNat + 1 = holdCount B.ticksPerUs k :=
  toNat_loaded_add_one _ k

/-- What follows a symbol is the same from its LOW phase as from its HIGH phase. -/
theorem Pte.afterSymbol_atStart (st : FsmState) (n : Nat) :
    (s.atStart st s.rep s.idx n).afterSymbol = s.afterSymbol := rfl

/-- A valid symbol is its two pulses, HIGH first (R59). -/
theorem Pte.plays_symbol (hst : s.st = .symHigh) (hi : s.idx.toNat < 25) (hrep : s.rep.toNat ≤ 5)
    (hv : ValidCommand s.cmdQ) {b : Symbol} (hb : symbolAt s.cmdQ s.idx.toNat = b)
    (hn : s.cnt.toNat + 1 = hiDur B.ticksPerUs b) (hr : s.NoResetFor (1525 * B.ticksPerUs.val)) :
    Pte.Plays [(s.pinOut, hiDur B.ticksPerUs b), (false, loDur B.ticksPerUs b)] s
      (s.afterSymbol.passed (1525 * B.ticksPerUs.val)) := by
  rw [← hiDur_add_loDur B.ticksPerUs b] at hr ⊢
  have hhigh := Pte.plays_symHigh hn (hr.mono (by omega)) hst hi (hb ▸ hv.dec_eq hi)
  have hlow := Pte.plays_symLow (s := (s.atStart .symLow s.rep s.idx (loDur B.ticksPerUs b)).passed
    (hiDur B.ticksPerUs b)) (s.toNat_cnt_atStart .symLow s.rep s.idx (lowCategory b)) hr.passed hv rfl
    (Nat.le_of_lt_succ hi) hrep
  rw [Pte.afterSymbol_passed, Pte.afterSymbol_atStart, Pte.passed_passed] at hlow
  exact hhigh.append hlow

/-- Settles O52: after its HIGH phase the symbol is in its LOW phase, which counts down to its last cycle. -/
theorem symbolPeriodLasts : Obligations.SymbolPeriodLasts := by
  intro B s b hst hi hd hn hr
  have hsum := hiDur_add_loDur B.ticksPerUs b
  have hlow := s.toNat_cnt_atStart .symLow s.rep s.idx (lowCategory b)
  rw [← hsum] at hr ⊢
  obtain ⟨x, hx⟩ : ∃ x, x = (s.atStart .symLow s.rep s.idx (loDur B.ticksPerUs b)).passed (hiDur B.ticksPerUs b) :=
    ⟨_, rfl⟩
  have hcnt : x.cnt.toNat + 1 = loDur B.ticksPerUs b := hx ▸ hlow
  have hhigh : Pte.edge^[hiDur B.ticksPerUs b] s = x :=
    hx ▸ (Pte.plays_symHigh hn (hr.mono (by omega)) hst hi hd).reaches
  have hsplit : hiDur B.ticksPerUs b + loDur B.ticksPerUs b - 1 = x.cnt.toNat + hiDur B.ticksPerUs b := by omega
  have hlast : Pte.edge^[x.cnt.toNat] x = x.lastCycle :=
    Pte.edge_iterate_to_lastCycle (by rw [hx]; rfl) ((hhigh ▸ hr.iterate_edge).mono (by omega))
  have hregs : x.lastCycle =
      { s with st := .symLow, cnt := 0, pinOut := false }.passed (hiDur B.ticksPerUs b + x.cnt.toNat) := by
    rw [← Pte.passed_passed, Pte.lastCycle, hx]
    rfl
  rw [core_run_eq, hsplit, Function.iterate_add_apply, hhigh, hlast, hregs, Nat.add_comm x.cnt.toNat]
  rfl

/-! A repetition -/

theorem Pte.toNat_symbolStart_idx (s : Pte B) (rep : BitVec 3) {i : Nat} (hi : i < 25) :
    (s.symbolStart rep i).idx.toNat = i :=
  (BitVec.toNat_ofNat i 5).trans (Nat.mod_eq_of_lt (by omega))

/-- Before index 24 the next symbol follows. -/
theorem Pte.afterSymbol_symbolStart (rep : BitVec 3) {i : Nat} (hi : i < 24) :
    (s.symbolStart rep i).afterSymbol = s.symbolStart rep (i + 1) := by
  have hidx := s.toNat_symbolStart_idx rep (i := i) (by omega)
  rw [Pte.afterSymbol, if_pos (by omega), hidx]
  rfl

/-- After symbol 24 the next repetition follows, if there is one. -/
theorem Pte.afterSymbol_last_of_lt {rep : BitVec 3} (hrep : rep.toNat < 5) :
    (s.symbolStart rep 24).afterSymbol = s.atStart .agcLow (rep + 1) 0 (holdCount B.ticksPerUs .agcL) := by
  rw [Pte.afterSymbol, if_neg (by exact Nat.lt_irrefl 24), if_pos (by exact hrep)]
  rfl

/-- After the last repetition RELEASE follows. -/
theorem Pte.afterSymbol_last : (s.symbolStart (BitVec.ofNat 3 5) 24).afterSymbol = s.atStart .release 5 24 1 := rfl

theorem Pte.plays_symbolStart {rep : BitVec 3} {i : Nat} (hi : i < 25) (hrep : rep.toNat ≤ 5) (hv : ValidCommand s.cmdQ)
    (hr : s.NoResetFor (1525 * B.ticksPerUs.val)) :
    Pte.Plays (symbolPulses B.ticksPerUs (cmdByte s.cmdQ i)) (s.symbolStart rep i)
      ((s.symbolStart rep i).afterSymbol.passed (1525 * B.ticksPerUs.val)) := by
  have hidx := s.toNat_symbolStart_idx rep hi
  rw [symbolPulses_of_symbol (hv.dec_eq hi)]
  exact Pte.plays_symbol (s := s.symbolStart rep i) rfl (by omega) hrep hv (by rw [hidx]; rfl)
    (s.toNat_cnt_atStart .symHigh _ _ (highCategory _)) hr

/-- The first `n + 1` symbols, one after the other, each in as many cycles. -/
theorem Pte.plays_firstSymbols {rep : BitVec 3} {n : Nat} (hn : n < 25) (hrep : rep.toNat ≤ 5) (hv : ValidCommand s.cmdQ)
    (hr : s.NoResetFor ((n + 1) * (1525 * B.ticksPerUs.val))) :
    Pte.Plays (firstSymbols B.ticksPerUs s.cmdQ (n + 1)) (s.symbolStart rep 0)
      ((s.symbolStart rep n).afterSymbol.passed ((n + 1) * (1525 * B.ticksPerUs.val))) := by
  rw [firstSymbols_succ]
  induction n with
  | zero =>
    rw [Nat.zero_add, Nat.one_mul] at hr ⊢
    exact Pte.plays_symbolStart hn hrep hv hr
  | succ n ih =>
    rw [Nat.add_one_mul (n + 1)] at hr ⊢
    have hnext := Pte.plays_symbolStart (s := s.passed _) (rep := rep) hn hrep hv hr.passed
    rw [Pte.symbolStart_passed, Pte.afterSymbol_passed, Pte.passed_passed] at hnext
    have hfirst := ih (by omega) (hr.mono (by omega))
    rw [← firstSymbols_succ, Pte.afterSymbol_symbolStart rep (by omega)] at hfirst
    exact hfirst.append hnext

/-- A repetition from any first cycle of its AGC-low pulse: that pulse, and the 25 symbols in index order (R98, R102). -/
theorem Pte.plays_repetition (hst : s.st = .agcLow) (hn : s.cnt.toNat + 1 = 2210 * B.ticksPerUs.val)
    (hrep : s.rep.toNat ≤ 5) (hv : ValidCommand s.cmdQ) (hr : s.NoResetFor (40335 * B.ticksPerUs.val)) :
    Pte.Plays ((s.pinOut, 2210 * B.ticksPerUs.val) :: firstSymbols B.ticksPerUs s.cmdQ 25) s
      ((s.symbolStart s.rep 24).afterSymbol.passed (40335 * B.ticksPerUs.val)) := by
  have hsplit : 40335 * B.ticksPerUs.val = 2210 * B.ticksPerUs.val + (24 + 1) * (1525 * B.ticksPerUs.val) := by omega
  rw [hsplit] at hr ⊢
  have hlow := Pte.plays_agcLow hn (hr.mono (by omega)) hv hst
  have hsymbols := Pte.plays_firstSymbols (s := s.passed _) (n := 24) (by decide) hrep hv hr.passed
  rw [Pte.symbolStart_passed, Pte.symbolStart_passed, Pte.afterSymbol_passed, Pte.passed_passed] at hsymbols
  exact hlow.append hsymbols

/-- Settles O53: what follows the repetition is the AGC-low pulse of the next, its count being that of this one. -/
theorem repetitionLasts : Obligations.RepetitionLasts := by
  intro B s hst hn hv hrep hr
  have hplays := Pte.plays_repetition hst hn (by omega) hv hr
  have htotal : totalCycles ((s.pinOut, 2210 * B.ticksPerUs.val) :: firstSymbols B.ticksPerUs s.cmdQ 25) =
      40335 * B.ticksPerUs.val := by
    rw [totalCycles_cons, totalCycles_firstSymbols hv le_rfl]
    omega
  have hcnt : BitVec.ofNat _ (2210 * B.ticksPerUs.val - 1) = s.cnt := by
    rw [← hn, Nat.add_sub_cancel, BitVec.ofNat_toNat, BitVec.setWidth_eq]
  have hreach := hplays.reaches
  rw [htotal, Pte.afterSymbol_last_of_lt hrep, Pte.atStart, holdCount_agcL, hcnt] at hreach
  rw [core_run_eq, hreach, hst]
  rfl

/-! The frame -/

/-- The state in the first cycle of the AGC-low pulse of repetition `r`. -/
def Pte.repetitionStart (r : Nat) (s : Pte B) : Pte B :=
  s.atStart .agcLow (BitVec.ofNat 3 r) 0 (holdCount B.ticksPerUs .agcL)

theorem toNat_repetition {r : Nat} (h : r ≤ 5) : (BitVec.ofNat 3 r).toNat = r :=
  (BitVec.toNat_ofNat r 3).trans (Nat.mod_eq_of_lt (by omega))

theorem Pte.repetitionStart_passed (m r : Nat) : (s.passed m).repetitionStart r = (s.repetitionStart r).passed m := rfl

theorem Pte.afterSymbol_repetition {r : Nat} (h : r < 5) :
    (s.symbolStart (BitVec.ofNat 3 r) 24).afterSymbol = s.repetitionStart (r + 1) := by
  rw [Pte.afterSymbol_last_of_lt (by rw [toNat_repetition h.le]; exact h), Pte.repetitionStart, BitVec.ofNat_add]
  rfl

theorem Pte.plays_repetitionStart {r : Nat} (h : r ≤ 5) (hv : ValidCommand s.cmdQ)
    (hr : s.NoResetFor (40335 * B.ticksPerUs.val)) :
    Pte.Plays (repetitionPulses B.ticksPerUs s.cmdQ) (s.repetitionStart r)
      ((s.symbolStart (BitVec.ofNat 3 r) 24).afterSymbol.passed (40335 * B.ticksPerUs.val)) :=
  Pte.plays_repetition (s := s.repetitionStart r) rfl (s.toNat_cnt_atStart .agcLow _ _ .agcL)
    ((toNat_repetition h).trans_le h) hv hr

/-- The first `r` repetitions, up to the beginning of repetition `r`. -/
theorem Pte.plays_repetitions {r : Nat} (h : r ≤ 5) (hv : ValidCommand s.cmdQ)
    (hr : s.NoResetFor (r * (40335 * B.ticksPerUs.val))) :
    Pte.Plays (List.replicate r (repetitionPulses B.ticksPerUs s.cmdQ)).flatten (s.repetitionStart 0)
      ((s.repetitionStart r).passed (r * (40335 * B.ticksPerUs.val))) := by
  induction r with
  | zero => simpa [Pte.passed] using Pte.Plays.nil (s.repetitionStart 0)
  | succ r ih =>
    rw [Nat.add_one_mul r] at hr ⊢
    have hnext := Pte.plays_repetitionStart (s := s.passed _) (r := r) (by omega) hv hr.passed
    rw [Pte.symbolStart_passed, Pte.afterSymbol_passed, Pte.passed_passed, Pte.afterSymbol_repetition (by omega),
      Pte.repetitionStart_passed] at hnext
    rw [List.replicate_succ', List.flatten_append, List.flatten_singleton]
    exact (ih (by omega) (hr.mono (by omega))).append hnext

/-- The first cycle of the frame: the AGC-high pulse (R88). -/
def Pte.frameStart (s : Pte B) : Pte B := s.atStart .agcHigh 0 0 (holdCount B.ticksPerUs .agcH)

/-- From the AGC-high pulse to the beginning of repetition `r` (R102). -/
theorem Pte.plays_frame_to_repetition {r : Nat} (h : r ≤ 5) (hv : ValidCommand s.cmdQ)
    (hr : s.NoResetFor (400 * B.ticksPerUs.val + r * (40335 * B.ticksPerUs.val))) :
    Pte.Plays ((true, 400 * B.ticksPerUs.val) :: (List.replicate r (repetitionPulses B.ticksPerUs s.cmdQ)).flatten)
      s.frameStart ((s.repetitionStart r).passed (400 * B.ticksPerUs.val + r * (40335 * B.ticksPerUs.val))) := by
  have hagc := Pte.plays_agcHigh (s := s.frameStart) (s.toNat_cnt_atStart .agcHigh 0 0 .agcH)
    (hr.mono (Nat.le_add_right _ _)) rfl
  have hreps := Pte.plays_repetitions (s := s.passed _) h hv hr.passed
  rw [Pte.repetitionStart_passed, Pte.repetitionStart_passed, Pte.passed_passed] at hreps
  exact hagc.append hreps

/-- The whole frame, to the beginning of RELEASE (R99, R102). -/
theorem Pte.plays_frame (hv : ValidCommand s.cmdQ) (hr : s.NoResetFor (242410 * B.ticksPerUs.val)) :
    Pte.Plays (framePulses B.ticksPerUs s.cmdQ) s.frameStart
      ((s.atStart .release 5 24 1).passed (242410 * B.ticksPerUs.val)) := by
  have hsplit : 242410 * B.ticksPerUs.val =
    400 * B.ticksPerUs.val + 5 * (40335 * B.ticksPerUs.val) + 40335 * B.ticksPerUs.val := by omega
  rw [hsplit] at hr ⊢
  have hfive := Pte.plays_frame_to_repetition (r := 5) le_rfl hv (hr.mono (by omega))
  have hlast := Pte.plays_repetitionStart (s := s.passed _) (r := 5) le_rfl hv hr.passed
  rw [Pte.symbolStart_passed, Pte.afterSymbol_passed, Pte.passed_passed, Pte.repetitionStart_passed,
    Pte.afterSymbol_last] at hlast
  have hpulses : framePulses B.ticksPerUs s.cmdQ =
      (true, 400 * B.ticksPerUs.val) :: (List.replicate 5 (repetitionPulses B.ticksPerUs s.cmdQ)).flatten ++
        repetitionPulses B.ticksPerUs s.cmdQ := by
    simp [framePulses, Config.nRep, List.replicate_succ]
  rw [hpulses]
  exact hfive.append hlast

end Sys2Proof.Machine
end

section
/-! PROOFS. The timing, pulse-output and exceptions families, whole transmissions: from the accepted TRANSMIT to its result
(R157), when each repetition begins (R102), what is recorded (R99, R127), and in which cycles the pin is claimed (R111). -/

namespace Sys2Proof

theorem FsmState.isBusy_of_isPulse {st : FsmState} (h : st.isPulse = true) : st.isBusy = true := by
  cases st <;> simp_all [FsmState.isPulse, FsmState.isBusy]

theorem FsmState.not_isPulse_of_acceptsStart {st : FsmState} (h : st.acceptsStart = true) : st.isPulse = false := by
  cases st <;> simp_all [FsmState.isPulse, FsmState.acceptsStart]

namespace Machine

variable {B : Build} {s : Pte B} {c : Command B.lenW}

/-! A valid transmission -/

theorem Pte.edge_of_validate_valid (hst : s.st = .validate) (hr : s.ports.rst = false) (hv : ValidCommand s.cmdQ) :
    s.edge = (((s.setLevel true).loadHold (holdCount B.ticksPerUs .agcH)).goto .agcHigh).tick := by
  rw [Pte.edge_of_no_reset hr, stateStep_of_validate hst, validateStep_of_valid hv]

theorem Pte.edge_of_release_done (hst : s.st = .release) (hr : s.ports.rst = false) (he : s.perr = .none) :
    s.edge = (s.releasePin.goto .done).tick := by
  rw [Pte.edge_of_no_reset hr, stateStep_of_release hst, releaseStep, if_pos he]

/-- The registers of the accepted command, with the pin granted. -/
def Pte.granted (c : Command B.lenW) (s : Pte B) : Pte B := { s.accept c with pinClaim := true }

theorem Pte.granted_of_legal (hlen : c.len = 25) (s : Pte B) : s.granted c =
    { s with cmdQ := c.data, rep := 0, idx := 0, cnt := 0, perr := .none, pinfo := 0, st := .claim, pinClaim := true } := by
  rw [Pte.granted, Pte.accept_of_legal hlen]

@[simp] theorem Pte.granted_cmdQ (c : Command B.lenW) (s : Pte B) : (s.granted c).cmdQ = c.data := s.accept_cmdQ c

theorem ValidCommand.granted (h : ValidCommand c.data) (s : Pte B) : ValidCommand (s.granted c).cmdQ :=
  (s.granted_cmdQ c).symm ▸ h

theorem Pte.NoResetFor.granted {n : Nat} (h : s.NoResetFor n) (c : Command B.lenW) : (s.granted c).NoResetFor n := by
  intro j hj
  have hports : (s.granted c).portsIn j = s.portsIn j := Pte.portsIn_congr (s.accept_driven c) (s.accept_cycle c) j
  rw [hports]
  exact h j hj

/-- No pulse state in the first `n + 1` cycles: so the states are as they are, and nothing is recorded (R106). -/
theorem unrecorded_of_no_pulse {n : Nat} {P : Nat → Pte B → Prop}
    (h : ∀ j, j ≤ n → (Pte.edge^[j] s).st.isPulse = false ∧ P j (Pte.edge^[j] s)) :
    (∀ j, j ≤ n → ∃ t, Sys2Proof.core.run j ⟨B, s⟩ = .next ⟨B, t⟩ ∧ t.st.isPulse = false ∧ P j t) ∧
      pulsesOf (recordFor (n + 1) ⟨B, s⟩) = [] := by
  refine ⟨fun j hj => ⟨_, core_run_eq j s, h j hj⟩, pulsesOf_recordFor_eq_nil fun j hj => ?_⟩
  obtain ⟨hno, -⟩ := h j (by omega)
  exact hno

section
variable (hrest : s.st.acceptsStart = true) (hc : s.Presents c) (hlen : c.len = 25)
include hrest hc hlen

theorem Pte.edge_two_eq (ha : (s.portsIn 1).pinAvail = true) (hr : s.NoResetFor 2) :
    Pte.edge^[2] s = { s.granted c with st := .validate, pinOut := false }.passed 2 := by
  have h2 : Pte.edge^[2] s = _ := Pte.edge_two_of_avail hrest hc hlen hr ha
  rw [h2, Pte.accepted, Pte.accept_of_legal hlen, Pte.granted_of_legal hlen]
  rfl

variable (hv : ValidCommand c.data) (ha : (s.portsIn 1).pinAvail = true)
include hv ha

/-- The frame begins in cycle 3 (R102). -/
theorem Pte.edge_three_of_valid (hr : s.NoResetFor 3) : Pte.edge^[3] s = (s.granted c).frameStart.passed 3 := by
  have h2 := Pte.edge_two_eq hrest hc hlen ha (hr.mono (by decide))
  have hnow : (Pte.edge^[2] s).ports.rst = false := Pte.NoResetFor.now (n := 0) hr.iterate_edge
  rw [Function.iterate_succ_apply', h2]
  rw [h2] at hnow
  rw [Pte.edge_of_validate_valid rfl hnow (hv.granted s), Pte.granted_of_legal hlen]
  refine Eq.trans ?_ (Pte.tick_passed 2 _)
  rfl

/-- The frame is emitted from cycle 3 on, and RELEASE follows it (R99, R102). -/
theorem Pte.plays_transmission (hr : s.NoResetFor (3 + 242410 * B.ticksPerUs.val)) :
    Pte.Plays (framePulses B.ticksPerUs c.data) (Pte.edge^[3] s)
      (((s.granted c).atStart .release 5 24 1).passed (3 + 242410 * B.ticksPerUs.val)) := by
  have hframe := Pte.plays_frame (s := (s.granted c).passed 3) (hv.granted s)
    (hr.granted c).passed
  rw [Pte.atStart_passed, Pte.passed_passed] at hframe
  rw [Pte.edge_three_of_valid hrest hc hlen hv ha (hr.mono (by omega)), ← s.granted_cmdQ c]
  exact hframe

theorem Pte.edge_release_of_valid (hr : s.NoResetFor (3 + 242410 * B.ticksPerUs.val)) :
    Pte.edge^[3 + 242410 * B.ticksPerUs.val] s =
      ((s.granted c).atStart .release 5 24 1).passed (3 + 242410 * B.ticksPerUs.val) := by
  have hreach := (Pte.plays_transmission hrest hc hlen hv ha hr).reaches
  rw [totalCycles_framePulses hv, frameCycles, ← Function.iterate_add_apply, Nat.add_comm] at hreach
  exact hreach

theorem Pte.edge_done_of_valid (hr : s.NoResetFor (4 + 242410 * B.ticksPerUs.val)) :
    Pte.edge^[4 + 242410 * B.ticksPerUs.val] s =
      (((s.granted c).atStart .release 5 24 1).releasePin.goto .done).passed (4 + 242410 * B.ticksPerUs.val) := by
  have hsplit : 4 + 242410 * B.ticksPerUs.val = (3 + 242410 * B.ticksPerUs.val) + 1 := by omega
  rw [hsplit] at hr ⊢
  have hrel := Pte.edge_release_of_valid hrest hc hlen hv ha (hr.mono (by omega))
  have hnow : (Pte.edge^[3 + 242410 * B.ticksPerUs.val] s).ports.rst = false := Pte.NoResetFor.now (n := 0) hr.iterate_edge
  rw [Function.iterate_succ_apply', hrel]
  rw [hrel] at hnow
  rw [Pte.edge_of_release_done rfl hnow (by rw [Pte.granted_of_legal hlen]; rfl)]
  refine Eq.trans ?_ (Pte.tick_passed _ _)
  rfl

/-- From the cycle after the TRANSMIT to RELEASE it is busy with the command it has latched, and from cycle 2 the pin is
claimed (R111, R157). -/
theorem Pte.during_valid (hr : s.NoResetFor (3 + 242410 * B.ticksPerUs.val)) {j : Nat} (h1 : 1 ≤ j)
    (hj : j < 4 + 242410 * B.ticksPerUs.val) : (Pte.edge^[j] s).busy = true ∧ (Pte.edge^[j] s).cmdQ = c.data ∧
      (2 ≤ j → (Pte.edge^[j] s).pinClaim = true) := by
  obtain rfl | rfl | ⟨h3, hlt⟩ | rfl : j = 1 ∨ j = 2 ∨ (3 ≤ j ∧ j < 3 + 242410 * B.ticksPerUs.val) ∨
    j = 3 + 242410 * B.ticksPerUs.val := by omega
  · have h : Pte.edge^[1] s = s.accepted c 1 := Pte.edge_one_of_presents hrest hc
    rw [h, Pte.accepted, Pte.accept_of_legal hlen]
    exact ⟨rfl, rfl, fun h => absurd h (by decide)⟩
  · rw [Pte.edge_two_eq hrest hc hlen ha (hr.mono (by omega))]
    exact ⟨rfl, s.granted_cmdQ c, fun _ => rfl⟩
  · obtain ⟨i, rfl⟩ : ∃ i, j = i + 3 := ⟨j - 3, by omega⟩
    have hplays := Pte.plays_transmission hrest hc hlen hv ha hr
    obtain ⟨hp, hq, hclaim⟩ := hplays.pulsing i (by rw [totalCycles_framePulses hv, frameCycles]; omega)
    rw [Function.iterate_add_apply, hq, hclaim, ← hplays.cmdQ, ← hplays.pinClaim]
    exact ⟨FsmState.isBusy_of_isPulse hp, s.granted_cmdQ c, fun _ => rfl⟩
  · rw [Pte.edge_release_of_valid hrest hc hlen hv ha hr]
    exact ⟨rfl, s.granted_cmdQ c, fun _ => rfl⟩

end

/-- Settles O54: acceptance, CLAIM, VALIDATE, the frame and RELEASE, one after the other. -/
theorem validTransmissionCompletes : Obligations.ValidTransmissionCompletes := by
  intro B s c hrest hc hlen hv ha hr
  have hduring := fun j => Pte.during_valid (j := j) hrest hc hlen hv ha (hr.mono (by omega))
  refine ⟨?_, fun j h1 hj => ⟨_, core_run_eq j s, ?_⟩, fun j h2 hj => ⟨_, core_run_eq j s, ?_⟩⟩
  · rw [core_run_eq, Pte.edge_done_of_valid hrest hc hlen hv ha hr, Pte.granted_of_legal hlen]
    rfl
  · obtain ⟨hbusy, hq, -⟩ := hduring j h1 hj
    exact ⟨hbusy, hq⟩
  · obtain ⟨-, -, hclaim⟩ := hduring j (by omega) hj
    exact hclaim h2

theorem totalCycles_to_repetition {T : Ticks} {q : CmdData} (hv : ValidCommand q) (r : Nat) :
    totalCycles ((true, 400 * T.val) :: (List.replicate r (repetitionPulses T q)).flatten) =
      400 * T.val + r * (40335 * T.val) := by
  rw [totalCycles_cons, totalCycles_flatten_replicate, totalCycles_repetitionPulses hv]

/-- Settles O55: the frame begins in cycle 3, with the AGC-high pulse and `r` repetitions before repetition `r`. -/
theorem repetitionStartCycles : Obligations.RepetitionStartCycles := by
  intro B s c r hrest hc hlen hv ha hr6 hr
  rw [Nat.add_assoc] at hr ⊢
  have hq : ValidCommand ((s.granted c).passed 3).cmdQ := hv.granted s
  have hreach := (Pte.plays_frame_to_repetition (r := r) (by omega) hq (hr.granted c).passed).reaches
  rw [totalCycles_to_repetition hq, Pte.repetitionStart_passed, Pte.passed_passed] at hreach
  have hrun : Pte.edge^[3 + (400 * B.ticksPerUs.val + r * (40335 * B.ticksPerUs.val))] s =
      ((s.granted c).repetitionStart r).passed (3 + (400 * B.ticksPerUs.val + r * (40335 * B.ticksPerUs.val))) := by
    rw [← hreach, Nat.add_comm, Function.iterate_add_apply,
      Pte.edge_three_of_valid hrest hc hlen hv ha (hr.mono (by omega))]
    rfl
  rw [core_run_eq, hrun]
  exact ⟨_, rfl, rfl, toNat_repetition (by omega), rfl,
    (s.granted c).toNat_cnt_atStart .agcLow (BitVec.ofNat 3 r) 0 .agcL, s.granted_cmdQ c, rfl, rfl⟩

/-- Settles O56: nothing is recorded before cycle 3 nor in RELEASE, and between them the frame is emitted. -/
theorem validTransmissionPulseList : Obligations.ValidTransmissionPulseList := by
  intro B s c hrest hc hlen hv ha hr
  have hplays := Pte.plays_transmission hrest hc hlen hv ha (hr.mono (by omega))
  have hfirst : ∀ j, j < 3 → (Pte.edge^[j] s).st.isPulse = false := by
    intro j hj
    interval_cases j
    · exact FsmState.not_isPulse_of_acceptsStart hrest
    · exact (congrArg FsmState.isPulse (Pte.edge_one_st hrest hc hlen)).trans rfl
    · rw [Pte.edge_two_eq hrest hc hlen ha (hr.mono (by omega))]; rfl
  have hclaim : (Pte.edge^[3] s).pinClaim = true := hplays.pinClaim.symm
  have hrelease := pulsesOf_recordFor_eq_nil (n := 1)
    (s := ((s.granted c).atStart .release 5 24 1).passed (3 + 242410 * B.ticksPerUs.val))
    (fun j hj => by rw [Nat.lt_one_iff.mp hj]; rfl)
  have hsplit : 4 + 242410 * B.ticksPerUs.val = 3 + (totalCycles (framePulses B.ticksPerUs c.data) + 1) := by
    rw [totalCycles_framePulses hv, frameCycles]; omega
  have hlist : pulsesOf (recordFor (4 + 242410 * B.ticksPerUs.val) ⟨B, s⟩) = framePulses B.ticksPerUs c.data := by
    rw [hsplit, recordFor_add, pulsesOf_recordFor_of_no_pulse hfirst, hplays.records hclaim, hrelease, List.append_nil]
  exact ⟨hlist, by rw [hlist, length_framePulses hv]⟩

/-! The pins and the states of a transmission that emits nothing (R111, R127) -/

/-- Up to CLAIM the pin is as the state of rest has it: LOW and not claimed. -/
theorem Pte.pins_to_claim (hpins : s.PinsMatch) (hrest : s.st.acceptsStart = true) (hc : s.Presents c) {j : Nat}
    (hj : j ≤ 1) : (Pte.edge^[j] s).pinClaim = false ∧ (Pte.edge^[j] s).pinOut = false := by
  have hfree := hpins.pins_of_not_claims (FsmState.not_claims_of_acceptsStart hrest)
  have h1 : Pte.edge^[1] s = s.accepted c 1 := Pte.edge_one_of_presents hrest hc
  interval_cases j
  · exact hfree
  · rw [h1]
    exact ⟨(s.accept_pinClaim c).trans hfree.1, (s.accept_pinOut c).trans hfree.2⟩

theorem exists_firstInvalid {q : CmdData} (h : ¬ValidCommand q) : ∃ b, firstInvalid q = some b :=
  Option.ne_none_iff_exists'.mp (mt (firstInvalid_eq_none_iff q).mp h)

/-- Settles O49: the claim rises in CLAIM and falls in RELEASE; over a whole transmission the states of its cycles have
it. -/
theorem pinClaimedAndReleasedOnce : Obligations.PinClaimedAndReleasedOnce := by
  refine ⟨fun B s t hstep => ?_, fun B s c hpins hrest hc => ?_⟩
  · rw [step_eq_edge] at hstep
    cases hstep
    refine ⟨fun h h' => ?_, Pte.released_of_claim_falls⟩
    obtain ⟨hst, hr, ha⟩ := Pte.granted_of_claim_rises h h'
    rw [Pte.edge_of_claim_avail hst hr ha]
    exact ⟨hst, hr, ha, rfl, rfl⟩
  have hbefore := fun j hj => (Pte.pins_to_claim hpins hrest hc (j := j) hj).1
  refine ⟨fun hlen ha hv hr j hj => ⟨_, core_run_eq j s, ?_⟩, fun hlen ha hv hr j hj => ⟨_, core_run_eq j s, ?_⟩,
    fun hlen ha hr j hj => ⟨_, core_run_eq j s, ?_⟩, fun _ j hj => ⟨_, core_run_eq j s, hbefore j hj⟩⟩
  · obtain h1 | ⟨h2, hlt⟩ | rfl : j ≤ 1 ∨ (2 ≤ j ∧ j < 4 + 242410 * B.ticksPerUs.val) ∨
      j = 4 + 242410 * B.ticksPerUs.val := by omega
    · simp only [hbefore j h1, Bool.false_eq_true, false_iff]
      omega
    · obtain ⟨-, -, hclaim⟩ := Pte.during_valid hrest hc hlen hv ha (hr.mono (by omega)) (by omega) hlt
      exact iff_of_true (hclaim h2) ⟨h2, hlt⟩
    · rw [Pte.edge_done_of_valid hrest hc hlen hv ha hr]
      exact iff_of_false nofun fun h => Nat.lt_irrefl _ h.2
  · obtain ⟨b, hb⟩ := exists_firstInvalid hv
    rw [(Pte.pins_until_rejected hrest hc hlen ha hb hpins hr hj).2]
    omega
  · obtain h1 | rfl : j ≤ 1 ∨ j = 2 := by omega
    · exact hbefore j h1
    · have h2 : Pte.edge^[2] s = _ := Pte.edge_two_of_unavail hrest hc hlen hr ha (hbefore 0 (by decide))
      rw [h2]
      exact (s.accept_pinClaim c).trans (hbefore 0 (by decide))

theorem Pte.cycle_one_of_legal (hrest : s.st.acceptsStart = true) (hc : s.Presents c) (hlen : c.len = 25) :
    (Pte.edge^[1] s).st = .claim ∧ (Pte.edge^[1] s).perr = .none := by
  have h1 : Pte.edge^[1] s = s.accepted c 1 := Pte.edge_one_of_presents hrest hc
  rw [h1, Pte.accepted, Pte.accept_of_legal hlen]
  exact ⟨rfl, rfl⟩

theorem Pte.cycle_one_of_wrong_length (hrest : s.st.acceptsStart = true) (hc : s.Presents c) (hlen : c.len ≠ 25) :
    (Pte.edge^[1] s).st = .rejected ∧ (Pte.edge^[1] s).perr = .invalidCommandLength := by
  have h1 : Pte.edge^[1] s = s.accepted c 1 := Pte.edge_one_of_presents hrest hc
  rw [h1, Pte.accepted, Pte.accept_of_wrong_length hlen]
  exact ⟨rfl, rfl⟩

/-- Settles O59: the states of each rejected command, cycle by cycle, none of them a pulse state. -/
theorem rejectedCommandEmitsNoPulse : Obligations.RejectedCommandEmitsNoPulse := by
  intro B s c hpins hrest hc
  have hrested : s.st.isPulse = false := FsmState.not_isPulse_of_acceptsStart hrest
  obtain ⟨hfree, hlow0⟩ := Pte.pins_to_claim hpins hrest hc (j := 0) (by decide)
  obtain ⟨-, hlow1⟩ := Pte.pins_to_claim hpins hrest hc (j := 1) le_rfl
  refine ⟨fun hlen => unrecorded_of_no_pulse fun j hj => ?length,
    fun hlen ha hr => unrecorded_of_no_pulse fun j hj => ?pin,
    fun hlen ha hv hr => unrecorded_of_no_pulse fun j hj => ?symbol⟩
  case length =>
    have hrejected := Pte.cycle_one_of_wrong_length hrest hc hlen
    interval_cases j
    · exact ⟨hrested, hlow0, nofun⟩
    · exact ⟨congrArg FsmState.isPulse hrejected.1, hlow1, fun _ => hrejected⟩
  case pin =>
    have hclaim := Pte.cycle_one_of_legal hrest hc hlen
    have h2 : Pte.edge^[2] s = _ := Pte.edge_two_of_unavail hrest hc hlen hr ha hfree
    interval_cases j
    · exact ⟨hrested, hlow0, nofun, nofun⟩
    · exact ⟨congrArg FsmState.isPulse hclaim.1, hlow1, fun _ => hclaim, nofun⟩
    · rw [h2]
      exact ⟨rfl, (s.accept_pinOut c).trans hlow0, nofun, fun _ => ⟨rfl, rfl⟩⟩
  case symbol =>
    obtain ⟨b, hb⟩ := exists_firstInvalid hv
    have hlow := fun j hj => (Pte.pins_until_rejected hrest hc hlen ha hb hpins hr (j := j) hj).1
    have hclaim := Pte.cycle_one_of_legal hrest hc hlen
    have h2 := Pte.edge_two_eq hrest hc hlen ha (hr.mono (by decide))
    have h3 : Pte.edge^[3] s = _ := Pte.edge_three_of_invalid hrest hc hlen ha hb (hr.mono (by decide))
    have h4 : Pte.edge^[4] s = _ := Pte.edge_four_of_invalid hrest hc hlen ha hb hr
    refine ⟨?_, hlow j hj, ?_⟩ <;> interval_cases j
    · exact hrested
    · exact congrArg FsmState.isPulse hclaim.1
    · rw [h2]; rfl
    · rw [h3]; rfl
    · rw [h4]; rfl
    · exact ⟨nofun, nofun, nofun, nofun⟩
    · exact ⟨fun _ => hclaim, nofun, nofun, nofun⟩
    · rw [h2, Pte.granted_of_legal hlen]
      exact ⟨nofun, fun _ => ⟨rfl, rfl⟩, nofun, nofun⟩
    · rw [h3]
      exact ⟨nofun, nofun, fun _ => ⟨rfl, rfl⟩, nofun⟩
    · rw [h4]
      exact ⟨nofun, nofun, nofun, fun _ => ⟨rfl, rfl⟩⟩

end Machine
end Sys2Proof
end
